-- ==== Sys2Proof/Word.lean ====
section
/-! DEFINITION. The word types of the block: every width that a rule of spec/10_state.md or spec/30_encoding.md names. -/

namespace Sys2Proof

/-- A byte of a sample region, of an encoded event, or a ramp register (R11, R41). -/
abbrev Byte := BitVec 8

/-- A 16-bit register: `control`, the volumes, the coefficients, `envelope_count` (R11). -/
abbrev Half := BitVec 16

/-- A 32-bit register or the datum of a bus access (R11, R64). -/
abbrev Word := BitVec 32

/-- A signed 16-bit sample, held as its two's complement pattern (R45, R176). -/
abbrev Sample := BitVec 16

/-- A voice number, 0 to 31 (R11). -/
abbrev VoiceIx := BitVec 5

/-- A page number, 0 to 127 (R34). -/
abbrev Page := BitVec 7

/-- A register offset inside a view, 0 to 15 (R64). -/
abbrev Offset := BitVec 4

/-- The 14-bit event word (R69). -/
abbrev EventWord := BitVec 14

end Sys2Proof
end

