-- ==== Sys2Proof/Config.lean ====
section
/-! DEFINITION. What the platform fixes before the block runs (the parameter types of spec/00_scope.md R6, with the fixed
figures of R5) and the free values: opaque constants with no body, so that no proof can rest on one. -/

namespace Sys2Proof

/-- `N_VOICES` (R5). -/
abbrev Config.nVoices : Nat := 32

/-- `N_REGIONS` (R5). -/
abbrev Config.nRegions : Nat := 4

/-- `K_SHIFT`, 0 or 2 (R6, R191): the right shift of a coefficient before it enters the filter. -/
inductive KShift where
  | none
  | two
deriving DecidableEq, Repr, Inhabited

/-- `ACCUM_MASK` (R6): the full 32-bit mask or the 31-bit one. -/
inductive AccumWidth where
  | full32
  | low31
deriving DecidableEq, Repr

/-- `ULAW_TABLE` (R6, R176, R177): the default G.711 expansion, or another table of 256 signed 16-bit entries. -/
inductive UlawTable where
  | g711
  | entries (t : Vector Sample 256)
deriving DecidableEq, Repr

/-- `VOLSCALE` (R6, R213): the default law of R214, or another law, of which nothing is known but R215. -/
inductive VolLaw where
  | linear16
  | other
deriving DecidableEq, Repr

/-- `INTERP_MODE` (R6, R179): `linear` is the only admitted value, so no other one can be written down. -/
inductive InterpMode where
  | linear
deriving DecidableEq, Repr

/-- The parameters of the step relation but for the sample regions (R6). No event changes them (R262). -/
structure Params where
  masterClock : Nat
  accumWidth : AccumWidth
  bigEndian : Bool
  ulaw : UlawTable
  kShift : KShift
  volLaw : VolLaw
  interpMode : InterpMode
deriving DecidableEq, Repr

/-- The value of the OPEN parameter `K_SHIFT` on a block just constructed (R6, R191; log entry 4). -/
opaque Config.kShift : KShift

/-- One less than the platform's `MASTER_CLOCK`, which R6 says is a positive integer (log entry 4). -/
opaque Config.masterClockPred : Nat

/-- The byte an out-of-range `RegionRead8` returns, one for each draw (R44; log entry 6). -/
opaque Config.freeByte : Nat → Byte

/-- The signed 16-bit value an out-of-range `RegionRead16` returns, one for each draw (R45; log entry 6). -/
opaque Config.freeSample : Nat → Sample

/-- What a tap holds after a filter value left 32 bits signed, one for each draw (R199; log entry 6). -/
opaque Config.freeTap : Nat → Word

/-- The sample returned when a filter value left 32 bits signed, one for each draw (R199; log entry 6). -/
opaque Config.freeLevel : Nat → Int

/-- A volume law other than the default, at the arguments where R215 fixes no result (log entry 8). -/
opaque Config.freeVolume : Int → Half → Int

end Sys2Proof
end

