-- ==== Sys2Proof/Syntax.lean ====
section
/-! DEFINITION. The instructions: the 62 events of spec/30_encoding.md R70, one constructor for each mnemonic of
spec/opcode_table.json. An operand is a field of the event word that the row does not fix, whether the event's effect reads it
(`voice`) or not (`view`, `pageLow`, `page`), so that no bit of a bus event word is lost; a write also carries its 32-bit
datum (R69). -/

namespace Sys2Proof

/-- An event. `voice` is `page[4:0]`, `view` is `page[5]`, `pageLow` is what the row leaves open of the page. -/
inductive Instr where
  /-- `RD_CONTROL`, both views (R81). -/
  | rdControl (view : BitVec 1) (voice : VoiceIx)
  /-- `RD_FREQCOUNT`, low view offset 1 (R83). -/
  | rdFreqcount (voice : VoiceIx)
  /-- `RD_LEFT_VOLUME`, low view offset 2 (R85). -/
  | rdLeftVolume (voice : VoiceIx)
  /-- `RD_LEFT_RAMP`, low view offset 3 (R87). -/
  | rdLeftRamp (voice : VoiceIx)
  /-- `RD_RIGHT_VOLUME`, low view offset 4 (R89). -/
  | rdRightVolume (voice : VoiceIx)
  /-- `RD_RIGHT_RAMP`, low view offset 5 (R91). -/
  | rdRightRamp (voice : VoiceIx)
  /-- `RD_ENVELOPE_COUNT`, low view offset 6 (R93). -/
  | rdEnvelopeCount (voice : VoiceIx)
  /-- `RD_K2`, low view offset 7 (R95). -/
  | rdK2 (voice : VoiceIx)
  /-- `RD_K2_RAMP`, low view offset 8 (R97). -/
  | rdK2Ramp (voice : VoiceIx)
  /-- `RD_K1`, low view offset 9 (R99). -/
  | rdK1 (voice : VoiceIx)
  /-- `RD_K1_RAMP`, low view offset 10 (R101). -/
  | rdK1Ramp (voice : VoiceIx)
  /-- `RD_ACTIVE_VOICES`, low view offset 11 (R103). -/
  | rdActiveVoices (pageLow : BitVec 5)
  /-- `RD_MODE`, low view offset 12 (R105). -/
  | rdMode (pageLow : BitVec 5)
  /-- `RD_RSVD_L13`, low view offset 13 (R127). -/
  | rdRsvdL13 (pageLow : BitVec 5)
  /-- `RD_START`, high view offset 1 (R107). -/
  | rdStart (voice : VoiceIx)
  /-- `RD_END`, high view offset 2 (R109). -/
  | rdEnd (voice : VoiceIx)
  /-- `RD_ACCUMULATOR`, high view offset 3 (R111). -/
  | rdAccumulator (voice : VoiceIx)
  /-- `RD_O4`, high view offset 4 (R117). -/
  | rdO4 (voice : VoiceIx)
  /-- `RD_O3`, high view offset 5 (R119). -/
  | rdO3 (voice : VoiceIx)
  /-- `RD_O2`, high view offset 6 (R121). -/
  | rdO2 (voice : VoiceIx)
  /-- `RD_O1`, high view offset 7 (R123). -/
  | rdO1 (voice : VoiceIx)
  /-- `RD_EXBANK`, high view offset 8 (R125). -/
  | rdExbank (voice : VoiceIx)
  /-- `RD_RSVD_H9`, high view offset 9 (R129). -/
  | rdRsvdH9 (voice : VoiceIx)
  /-- `RD_RSVD_H10`, high view offset 10 (R129). -/
  | rdRsvdH10 (voice : VoiceIx)
  /-- `RD_RSVD_H11`, high view offset 11 (R129). -/
  | rdRsvdH11 (voice : VoiceIx)
  /-- `RD_RSVD_H12`, high view offset 12 (R129). -/
  | rdRsvdH12 (voice : VoiceIx)
  /-- `RD_RSVD_H13`, high view offset 13 (R129). -/
  | rdRsvdH13 (voice : VoiceIx)
  /-- `RD_IRQV`, offset 14 of every page (R113). -/
  | rdIrqv (page : Page)
  /-- `RD_PAGE`, offset 15 of every page (R115). -/
  | rdPage (page : Page)
  /-- `RD_TEST`, test pages, offsets 0 to 13 (R131). -/
  | rdTest (pageLow : BitVec 6) (offset : Offset)
  /-- `WR_CONTROL`, both views (R80). -/
  | wrControl (view : BitVec 1) (voice : VoiceIx) (value : Word)
  /-- `WR_FREQCOUNT`, low view offset 1 (R82). -/
  | wrFreqcount (voice : VoiceIx) (value : Word)
  /-- `WR_LEFT_VOLUME`, low view offset 2 (R84). -/
  | wrLeftVolume (voice : VoiceIx) (value : Word)
  /-- `WR_LEFT_RAMP`, low view offset 3 (R86). -/
  | wrLeftRamp (voice : VoiceIx) (value : Word)
  /-- `WR_RIGHT_VOLUME`, low view offset 4 (R88). -/
  | wrRightVolume (voice : VoiceIx) (value : Word)
  /-- `WR_RIGHT_RAMP`, low view offset 5 (R90). -/
  | wrRightRamp (voice : VoiceIx) (value : Word)
  /-- `WR_ENVELOPE_COUNT`, low view offset 6 (R92). -/
  | wrEnvelopeCount (voice : VoiceIx) (value : Word)
  /-- `WR_K2`, low view offset 7 (R94). -/
  | wrK2 (voice : VoiceIx) (value : Word)
  /-- `WR_K2_RAMP`, low view offset 8 (R96). -/
  | wrK2Ramp (voice : VoiceIx) (value : Word)
  /-- `WR_K1`, low view offset 9 (R98). -/
  | wrK1 (voice : VoiceIx) (value : Word)
  /-- `WR_K1_RAMP`, low view offset 10 (R100). -/
  | wrK1Ramp (voice : VoiceIx) (value : Word)
  /-- `WR_ACTIVE_VOICES`, low view offset 11 (R102). -/
  | wrActiveVoices (pageLow : BitVec 5) (value : Word)
  /-- `WR_MODE`, low view offset 12 (R104). -/
  | wrMode (pageLow : BitVec 5) (value : Word)
  /-- `WR_RSVD_L13`, low view offset 13 (R126). -/
  | wrRsvdL13 (pageLow : BitVec 5) (value : Word)
  /-- `WR_START`, high view offset 1 (R106). -/
  | wrStart (voice : VoiceIx) (value : Word)
  /-- `WR_END`, high view offset 2 (R108). -/
  | wrEnd (voice : VoiceIx) (value : Word)
  /-- `WR_ACCUMULATOR`, high view offset 3 (R110). -/
  | wrAccumulator (voice : VoiceIx) (value : Word)
  /-- `WR_O4`, high view offset 4 (R116). -/
  | wrO4 (voice : VoiceIx) (value : Word)
  /-- `WR_O3`, high view offset 5 (R118). -/
  | wrO3 (voice : VoiceIx) (value : Word)
  /-- `WR_O2`, high view offset 6 (R120). -/
  | wrO2 (voice : VoiceIx) (value : Word)
  /-- `WR_O1`, high view offset 7 (R122). -/
  | wrO1 (voice : VoiceIx) (value : Word)
  /-- `WR_EXBANK`, high view offset 8 (R124). -/
  | wrExbank (voice : VoiceIx) (value : Word)
  /-- `WR_RSVD_H9`, high view offset 9 (R128). -/
  | wrRsvdH9 (voice : VoiceIx) (value : Word)
  /-- `WR_RSVD_H10`, high view offset 10 (R128). -/
  | wrRsvdH10 (voice : VoiceIx) (value : Word)
  /-- `WR_RSVD_H11`, high view offset 11 (R128). -/
  | wrRsvdH11 (voice : VoiceIx) (value : Word)
  /-- `WR_RSVD_H12`, high view offset 12 (R128). -/
  | wrRsvdH12 (voice : VoiceIx) (value : Word)
  /-- `WR_RSVD_H13`, high view offset 13 (R128). -/
  | wrRsvdH13 (voice : VoiceIx) (value : Word)
  /-- `WR_IRQV`, offset 14 of every page (R112). -/
  | wrIrqv (page : Page) (value : Word)
  /-- `WR_PAGE`, offset 15 of every page (R114). -/
  | wrPage (page : Page) (value : Word)
  /-- `WR_TEST`, test pages, offsets 0 to 13 (R130). -/
  | wrTest (pageLow : BitVec 6) (offset : Offset) (value : Word)
  /-- `FRAME`: one output sample period (R210). -/
  | frame
  /-- `RESET` (R260). -/
  | reset
deriving DecidableEq, Repr

end Sys2Proof
end

