-- ==== Sys2Proof/WellFormed.lean ====
section
/-! DEFINITION. Which terms of `Instr` stand for an event. The operand types hold every field within its width; the one
check left is that the offset of a test-page access is at most 13 (spec/30_encoding.md R70 item 4): offsets 14 and 15 of a
test page are `IRQV` and `PAGE`. -/

namespace Sys2Proof

/-- The offsets of a test page that are stubs (R70 item 4, R72). -/
def Instr.testOffsetOk (offset : Offset) : Bool := offset.toNat ≤ 13

/-- The term stands for an event of R70. -/
def Instr.wf : Instr → Bool
  | .rdTest _ offset => Instr.testOffsetOk offset
  | .wrTest _ offset _ => Instr.testOffsetOk offset
  | .rdControl _ _ | .rdFreqcount _ | .rdLeftVolume _ | .rdLeftRamp _ | .rdRightVolume _ | .rdRightRamp _
  | .rdEnvelopeCount _ | .rdK2 _ | .rdK2Ramp _ | .rdK1 _ | .rdK1Ramp _ | .rdActiveVoices _ | .rdMode _ | .rdRsvdL13 _
  | .rdStart _ | .rdEnd _ | .rdAccumulator _ | .rdO4 _ | .rdO3 _ | .rdO2 _ | .rdO1 _ | .rdExbank _ | .rdRsvdH9 _
  | .rdRsvdH10 _ | .rdRsvdH11 _ | .rdRsvdH12 _ | .rdRsvdH13 _ | .rdIrqv _ | .rdPage _ | .wrControl _ _ _
  | .wrFreqcount _ _ | .wrLeftVolume _ _ | .wrLeftRamp _ _ | .wrRightVolume _ _ | .wrRightRamp _ _
  | .wrEnvelopeCount _ _ | .wrK2 _ _ | .wrK2Ramp _ _ | .wrK1 _ _ | .wrK1Ramp _ _ | .wrActiveVoices _ _ | .wrMode _ _
  | .wrRsvdL13 _ _ | .wrStart _ _ | .wrEnd _ _ | .wrAccumulator _ _ | .wrO4 _ _ | .wrO3 _ _ | .wrO2 _ _ | .wrO1 _ _
  | .wrExbank _ _ | .wrRsvdH9 _ _ | .wrRsvdH10 _ _ | .wrRsvdH11 _ _ | .wrRsvdH12 _ _ | .wrRsvdH13 _ _ | .wrIrqv _ _
  | .wrPage _ _ | .frame | .reset => true

end Sys2Proof
end

