-- ==== Sys2Proof/Decode.lean ====
section
/-! DEFINITION. The event word of spec/30_encoding.md R69: its fields, its decoder (R70) and its encoder. An event is laid out
in bytes as the 14-bit word in two bytes, the less significant first, the top two bits 0, followed, for a `WR`, by the
32-bit value in four bytes, the less significant first (DESIGN CHOICE, log entry 3: the word is a device of the spec and
the spec gives it no byte form). -/

namespace Sys2Proof

/-- Why a list of bytes is no event. -/
inductive DecodeError where
  /-- Fewer bytes than the event takes (log entry 3). -/
  | truncated
  /-- One of the two bits above the 14-bit word is set (log entry 3). -/
  | paddingSet
  /-- `class = 3`: "not an event" (R73). -/
  | notAnEvent
deriving DecidableEq, Repr

/-! ### The fields of the event word (R69) -/

/-- Bits 13:12. -/
def EventWord.cls (w : EventWord) : BitVec 2 := w.extractLsb' 12 2

/-- Bit 11: 1 is `WR`. -/
def EventWord.wr (w : EventWord) : BitVec 1 := w.extractLsb' 11 1

/-- Bits 10:4. -/
def EventWord.page (w : EventWord) : Page := w.extractLsb' 4 7

/-- Bits 3:0. -/
def EventWord.offset (w : EventWord) : Offset := w.extractLsb' 0 4

/-- The word with the four fields. -/
def packWord (cls : BitVec 2) (wr : BitVec 1) (page : Page) (offset : Offset) : EventWord :=
  cls ++ wr ++ page ++ offset

/-- A `WR` carries a value beside the word; nothing else does (R69). -/
def EventWord.carriesValue (w : EventWord) : Bool := w.cls = 0#2 ∧ w.wr = 1#1

/-! ### Fields of the page (R65) -/

/-- `page[4:0]`, the voice of the low and the high view. -/
def Page.voice (p : Page) : VoiceIx := p.extractLsb' 0 5

/-- `page[5]`: 0 is the low view, 1 the high view, on a page below 64. -/
def Page.view (p : Page) : BitVec 1 := p.extractLsb' 5 1

/-- `page[5:0]`, what a test page leaves open. -/
def Page.testLow (p : Page) : BitVec 6 := p.extractLsb' 0 6

/-- `page[6]`: 1 is a test page. -/
def Page.isTest (p : Page) : Bool := p.extractLsb' 6 1 = 1#1

/-- The page of a voice in a view. -/
def pageOf (view : BitVec 1) (voice : VoiceIx) : Page := 0#1 ++ view ++ voice

/-- The test page with the given low bits. -/
def testPageOf (low : BitVec 6) : Page := 1#1 ++ low

/-! ### The decoder (R70) -/

/-- The low view, offsets 1 to 13 (R66); the callers have taken 0, 14 and 15, so the last arm is 13. -/
def decodeRdLow (offset : Nat) (voice : VoiceIx) : Instr :=
  match offset with
  | 1 => .rdFreqcount voice
  | 2 => .rdLeftVolume voice
  | 3 => .rdLeftRamp voice
  | 4 => .rdRightVolume voice
  | 5 => .rdRightRamp voice
  | 6 => .rdEnvelopeCount voice
  | 7 => .rdK2 voice
  | 8 => .rdK2Ramp voice
  | 9 => .rdK1 voice
  | 10 => .rdK1Ramp voice
  | 11 => .rdActiveVoices voice
  | 12 => .rdMode voice
  | _ => .rdRsvdL13 voice

/-- The high view, offsets 1 to 13 (R66); as for the low view the last arm is 13. -/
def decodeRdHigh (offset : Nat) (voice : VoiceIx) : Instr :=
  match offset with
  | 1 => .rdStart voice
  | 2 => .rdEnd voice
  | 3 => .rdAccumulator voice
  | 4 => .rdO4 voice
  | 5 => .rdO3 voice
  | 6 => .rdO2 voice
  | 7 => .rdO1 voice
  | 8 => .rdExbank voice
  | 9 => .rdRsvdH9 voice
  | 10 => .rdRsvdH10 voice
  | 11 => .rdRsvdH11 voice
  | 12 => .rdRsvdH12 voice
  | _ => .rdRsvdH13 voice

/-- A `RD` access: R70 items 2 to 7, in that order. -/
def decodeRd (page : Page) (offset : Offset) : Instr :=
  if offset = 15#4 then .rdPage page
  else if offset = 14#4 then .rdIrqv page
  else if page.isTest then .rdTest page.testLow offset
  else if offset = 0#4 then .rdControl page.view page.voice
  else if page.view = 0#1 then decodeRdLow offset.toNat page.voice
  else decodeRdHigh offset.toNat page.voice

/-- The low view, offsets 1 to 13 (R66); the callers have taken 0, 14 and 15, so the last arm is 13. -/
def decodeWrLow (offset : Nat) (voice : VoiceIx) (value : Word) : Instr :=
  match offset with
  | 1 => .wrFreqcount voice value
  | 2 => .wrLeftVolume voice value
  | 3 => .wrLeftRamp voice value
  | 4 => .wrRightVolume voice value
  | 5 => .wrRightRamp voice value
  | 6 => .wrEnvelopeCount voice value
  | 7 => .wrK2 voice value
  | 8 => .wrK2Ramp voice value
  | 9 => .wrK1 voice value
  | 10 => .wrK1Ramp voice value
  | 11 => .wrActiveVoices voice value
  | 12 => .wrMode voice value
  | _ => .wrRsvdL13 voice value

/-- The high view, offsets 1 to 13 (R66); as for the low view the last arm is 13. -/
def decodeWrHigh (offset : Nat) (voice : VoiceIx) (value : Word) : Instr :=
  match offset with
  | 1 => .wrStart voice value
  | 2 => .wrEnd voice value
  | 3 => .wrAccumulator voice value
  | 4 => .wrO4 voice value
  | 5 => .wrO3 voice value
  | 6 => .wrO2 voice value
  | 7 => .wrO1 voice value
  | 8 => .wrExbank voice value
  | 9 => .wrRsvdH9 voice value
  | 10 => .wrRsvdH10 voice value
  | 11 => .wrRsvdH11 voice value
  | 12 => .wrRsvdH12 voice value
  | _ => .wrRsvdH13 voice value

/-- A `WR` access: R70 items 2 to 7, in that order. -/
def decodeWr (page : Page) (offset : Offset) (value : Word) : Instr :=
  if offset = 15#4 then .wrPage page value
  else if offset = 14#4 then .wrIrqv page value
  else if page.isTest then .wrTest page.testLow offset value
  else if offset = 0#4 then .wrControl page.view page.voice value
  else if page.view = 0#1 then decodeWrLow offset.toNat page.voice value
  else decodeWrHigh offset.toNat page.voice value

/-- An event word with the value beside it: R70 item 1 and R73. A word that carries no value ignores it. -/
def decodeWord (w : EventWord) (value : Word) : Except DecodeError Instr :=
  if w.cls = 0#2 then
    if w.wr = 1#1 then .ok (decodeWr w.page w.offset value) else .ok (decodeRd w.page w.offset)
  else if w.cls = 1#2 then .ok .frame
  else if w.cls = 2#2 then .ok .reset
  else .error .notAnEvent

/-- The event the bytes begin with, and the bytes after it. -/
def decode : List Byte → Except DecodeError (Instr × List Byte)
  | b0 :: b1 :: rest =>
    if b1.extractLsb' 6 2 ≠ 0#2 then .error .paddingSet
    else
      let w : EventWord := b1.extractLsb' 0 6 ++ b0
      if w.carriesValue then
        match rest with
        | v0 :: v1 :: v2 :: v3 :: rest' => (decodeWord w (v3 ++ v2 ++ v1 ++ v0)).map (·, rest')
        | _ => .error .truncated
      else (decodeWord w 0#32).map (·, rest)
  | _ => .error .truncated

/-! ### The encoder -/

/-- The two bytes of an event word. -/
def wordBytes (w : EventWord) : List Byte := [w.extractLsb' 0 8, 0#2 ++ w.extractLsb' 8 6]

/-- The four bytes of a bus value. -/
def valueBytes (value : Word) : List Byte :=
  [value.extractLsb' 0 8, value.extractLsb' 8 8, value.extractLsb' 16 8, value.extractLsb' 24 8]

/-- The event word of a read: class 0, `w` 0. -/
def rdWord (page : Page) (offset : Offset) : EventWord := packWord 0#2 0#1 page offset

/-- The event word of a write: class 0, `w` 1. -/
def wrWord (page : Page) (offset : Offset) : EventWord := packWord 0#2 1#1 page offset

/-- The event word of an event (R66, R69); the bits a FRAME and a RESET do not decode are written as 0. -/
def eventWord : Instr → EventWord
  | .rdControl view voice => rdWord (pageOf view voice) 0#4
  | .rdFreqcount voice => rdWord (pageOf 0#1 voice) 1#4
  | .rdLeftVolume voice => rdWord (pageOf 0#1 voice) 2#4
  | .rdLeftRamp voice => rdWord (pageOf 0#1 voice) 3#4
  | .rdRightVolume voice => rdWord (pageOf 0#1 voice) 4#4
  | .rdRightRamp voice => rdWord (pageOf 0#1 voice) 5#4
  | .rdEnvelopeCount voice => rdWord (pageOf 0#1 voice) 6#4
  | .rdK2 voice => rdWord (pageOf 0#1 voice) 7#4
  | .rdK2Ramp voice => rdWord (pageOf 0#1 voice) 8#4
  | .rdK1 voice => rdWord (pageOf 0#1 voice) 9#4
  | .rdK1Ramp voice => rdWord (pageOf 0#1 voice) 10#4
  | .rdActiveVoices pageLow => rdWord (pageOf 0#1 pageLow) 11#4
  | .rdMode pageLow => rdWord (pageOf 0#1 pageLow) 12#4
  | .rdRsvdL13 pageLow => rdWord (pageOf 0#1 pageLow) 13#4
  | .rdStart voice => rdWord (pageOf 1#1 voice) 1#4
  | .rdEnd voice => rdWord (pageOf 1#1 voice) 2#4
  | .rdAccumulator voice => rdWord (pageOf 1#1 voice) 3#4
  | .rdO4 voice => rdWord (pageOf 1#1 voice) 4#4
  | .rdO3 voice => rdWord (pageOf 1#1 voice) 5#4
  | .rdO2 voice => rdWord (pageOf 1#1 voice) 6#4
  | .rdO1 voice => rdWord (pageOf 1#1 voice) 7#4
  | .rdExbank voice => rdWord (pageOf 1#1 voice) 8#4
  | .rdRsvdH9 voice => rdWord (pageOf 1#1 voice) 9#4
  | .rdRsvdH10 voice => rdWord (pageOf 1#1 voice) 10#4
  | .rdRsvdH11 voice => rdWord (pageOf 1#1 voice) 11#4
  | .rdRsvdH12 voice => rdWord (pageOf 1#1 voice) 12#4
  | .rdRsvdH13 voice => rdWord (pageOf 1#1 voice) 13#4
  | .rdIrqv page => rdWord page 14#4
  | .rdPage page => rdWord page 15#4
  | .rdTest pageLow offset => rdWord (testPageOf pageLow) offset
  | .wrControl view voice _ => wrWord (pageOf view voice) 0#4
  | .wrFreqcount voice _ => wrWord (pageOf 0#1 voice) 1#4
  | .wrLeftVolume voice _ => wrWord (pageOf 0#1 voice) 2#4
  | .wrLeftRamp voice _ => wrWord (pageOf 0#1 voice) 3#4
  | .wrRightVolume voice _ => wrWord (pageOf 0#1 voice) 4#4
  | .wrRightRamp voice _ => wrWord (pageOf 0#1 voice) 5#4
  | .wrEnvelopeCount voice _ => wrWord (pageOf 0#1 voice) 6#4
  | .wrK2 voice _ => wrWord (pageOf 0#1 voice) 7#4
  | .wrK2Ramp voice _ => wrWord (pageOf 0#1 voice) 8#4
  | .wrK1 voice _ => wrWord (pageOf 0#1 voice) 9#4
  | .wrK1Ramp voice _ => wrWord (pageOf 0#1 voice) 10#4
  | .wrActiveVoices pageLow _ => wrWord (pageOf 0#1 pageLow) 11#4
  | .wrMode pageLow _ => wrWord (pageOf 0#1 pageLow) 12#4
  | .wrRsvdL13 pageLow _ => wrWord (pageOf 0#1 pageLow) 13#4
  | .wrStart voice _ => wrWord (pageOf 1#1 voice) 1#4
  | .wrEnd voice _ => wrWord (pageOf 1#1 voice) 2#4
  | .wrAccumulator voice _ => wrWord (pageOf 1#1 voice) 3#4
  | .wrO4 voice _ => wrWord (pageOf 1#1 voice) 4#4
  | .wrO3 voice _ => wrWord (pageOf 1#1 voice) 5#4
  | .wrO2 voice _ => wrWord (pageOf 1#1 voice) 6#4
  | .wrO1 voice _ => wrWord (pageOf 1#1 voice) 7#4
  | .wrExbank voice _ => wrWord (pageOf 1#1 voice) 8#4
  | .wrRsvdH9 voice _ => wrWord (pageOf 1#1 voice) 9#4
  | .wrRsvdH10 voice _ => wrWord (pageOf 1#1 voice) 10#4
  | .wrRsvdH11 voice _ => wrWord (pageOf 1#1 voice) 11#4
  | .wrRsvdH12 voice _ => wrWord (pageOf 1#1 voice) 12#4
  | .wrRsvdH13 voice _ => wrWord (pageOf 1#1 voice) 13#4
  | .wrIrqv page _ => wrWord page 14#4
  | .wrPage page _ => wrWord page 15#4
  | .wrTest pageLow offset _ => wrWord (testPageOf pageLow) offset
  | .frame => packWord 1#2 0#1 0#7 0#4
  | .reset => packWord 2#2 0#1 0#7 0#4

/-- The value a write carries beside its word; `none` for an event that carries none (R69). -/
def busValue : Instr → Option Word
  | .wrControl _ _ value => some value
  | .wrFreqcount _ value => some value
  | .wrLeftVolume _ value => some value
  | .wrLeftRamp _ value => some value
  | .wrRightVolume _ value => some value
  | .wrRightRamp _ value => some value
  | .wrEnvelopeCount _ value => some value
  | .wrK2 _ value => some value
  | .wrK2Ramp _ value => some value
  | .wrK1 _ value => some value
  | .wrK1Ramp _ value => some value
  | .wrActiveVoices _ value => some value
  | .wrMode _ value => some value
  | .wrRsvdL13 _ value => some value
  | .wrStart _ value => some value
  | .wrEnd _ value => some value
  | .wrAccumulator _ value => some value
  | .wrO4 _ value => some value
  | .wrO3 _ value => some value
  | .wrO2 _ value => some value
  | .wrO1 _ value => some value
  | .wrExbank _ value => some value
  | .wrRsvdH9 _ value => some value
  | .wrRsvdH10 _ value => some value
  | .wrRsvdH11 _ value => some value
  | .wrRsvdH12 _ value => some value
  | .wrRsvdH13 _ value => some value
  | .wrIrqv _ value => some value
  | .wrPage _ value => some value
  | .wrTest _ _ value => some value
  | .rdControl _ _ | .rdFreqcount _ | .rdLeftVolume _ | .rdLeftRamp _ | .rdRightVolume _ | .rdRightRamp _
  | .rdEnvelopeCount _ | .rdK2 _ | .rdK2Ramp _ | .rdK1 _ | .rdK1Ramp _ | .rdActiveVoices _ | .rdMode _
  | .rdRsvdL13 _ | .rdStart _ | .rdEnd _ | .rdAccumulator _ | .rdO4 _ | .rdO3 _ | .rdO2 _ | .rdO1 _
  | .rdExbank _ | .rdRsvdH9 _ | .rdRsvdH10 _ | .rdRsvdH11 _ | .rdRsvdH12 _ | .rdRsvdH13 _ | .rdIrqv _
  | .rdPage _ | .rdTest _ _ | .frame | .reset => none

/-- The bytes of an event. -/
def encode (i : Instr) : List Byte := wordBytes (eventWord i) ++ ((busValue i).map valueBytes).getD []

/-! ### The opcode table's numbering -/

/-- The `n` low bytes of a number, the least significant first. -/
def bytesOfNat : Nat → Nat → List Byte
  | 0, _ => []
  | n + 1, w => BitVec.ofNat 8 w :: bytesOfNat n (w / 256)

/-- The bytes of an event of `nbits` bits `w`, every bit above them 0, up to the longest event (six bytes). -/
def tableBytes (nbits w : Nat) : List Byte := bytesOfNat 6 (w % 2 ^ nbits)

/-- The event the decoder reads from the bits `w` of a row of the opcode table. -/
def decodeTableWord (nbits w : Nat) : Option Instr :=
  match decode (tableBytes nbits w) with
  | .ok (i, _) => some i
  | .error _ => none

end Sys2Proof
end

