-- ==== Sys2Proof/Machine/State.lean ====
section
/-! DEFINITION. The state of the block (spec/10_state.md R10, R11), the parameters and sample regions its rules read
(spec/00_scope.md R6, spec/20_memory.md R41), the environment's side (log entries 1 and 2), the reasons a step can stop,
and the state after reset (spec/70_reset_and_hazards.md R260, R261). -/

namespace Sys2Proof.Machine

/-- No event raises an exception or an error, so there is no reason for a fault: the type is empty
(R230; log entry 9). Safe or unsafe does not arise: nothing raises one. -/
inductive Fault where
deriving DecidableEq, Repr

/-- Why the model gives a step no meaning. -/
inductive Refusal where
  /-- Raised by `exec` for an event whose meaning is not written yet; no arm does. Safe: the run stops. -/
  | notModelled (mnemonic : String)
  /-- Raised by `step` where the event word does not decode. Safe: the run stops. No event of the environment has such
  a word (R73). -/
  | undecodable (e : DecodeError)
  /-- Raised by `FRAME` where a running bow-tie voice detects a crossing and its reflection chain has no end the spec
  gives: `start > end`, which the spec says a model refuses (R150, 93_implementation_defined.md U3; log entry 7). Safe:
  the run stops, with no part of the FRAME done. -/
  | bowTieChain
deriving DecidableEq, Repr

/-- The registers of one voice (R11). Positions are unsigned Q21.11 (R9); ramps and taps are two's complement
patterns (R7). `endPos` is the spec's `end`. -/
structure Voice where
  control : Half
  start : Word
  endPos : Word
  accumulator : Word
  freqcount : Word
  leftVolume : Half
  leftRamp : Byte
  rightVolume : Half
  rightRamp : Byte
  envelopeCount : Half
  k1 : Half
  k1Ramp : Byte
  k2 : Half
  k2Ramp : Byte
  o1 : Word
  o2 : Word
  o3 : Word
  o4 : Word
  exbank : Word
  filtcount : BitVec 3
deriving DecidableEq, Repr

/-- The state of one instance of the block: R10's tuple and nothing else. -/
structure Chip where
  voices : Vector Voice 32
  activeVoices : BitVec 5
  currentPage : Page
  mode : Byte
  irqVector : Byte
  irqLine : Bool
deriving DecidableEq, Repr

/-- A mapped sample region (R41): a byte array of length `len`, held as the cells whose byte is not `unlistedByte`, in rising
order of index, so that equal arrays are equal data (log entry 5). -/
structure Region where
  len : Nat
  cells : List Host.Cell
deriving DecidableEq, Repr

/-- `REGION[0..3]`: `none` is the spec's `none`, unmapped (R41). -/
abbrev Memory := Vector (Option Region) 4

/-- An event as its agent issues it: no page, which the block supplies from `Chip.current_page` (R60 to R64). -/
inductive Event where
  /-- The host CPU writes `value` at `offset` (R61). -/
  | wr (offset : Offset) (value : Word)
  /-- The host CPU reads at `offset` (R62). -/
  | rd (offset : Offset)
  /-- The sample clock ends an output sample period (R63). -/
  | frame
  /-- The platform resets the block (R63). -/
  | reset
deriving DecidableEq, Repr

/-- What an event puts out: nothing (a `WR`, `RESET`), the datum of a `RD` (R62), or the stereo frame `OUT(L, R)` of a `FRAME`
(R63, R217). -/
inductive Output where
  | nothing
  | data (value : Word)
  | audio (left right : Int)
deriving DecidableEq, Repr

/-- The machine: the block, the regions and parameters its rules read, the events the environment has issued and the block
has not taken yet, what the last event put out, and how many free values have been drawn. The last three are the MODEL's own
(log entries 1, 2, 6). -/
structure State where
  chip : Chip
  memory : Memory
  params : Params
  input : List Event
  output : Output
  draws : Nat
deriving DecidableEq, Repr

/-- One step's outcome. -/
abbrev Result := Host.Outcome State Fault Refusal

/-- A voice after RESET: both stop flags set, everything else 0 (R260). -/
def Voice.reset : Voice where
  control := 0x0003#16
  start := 0
  endPos := 0
  accumulator := 0
  freqcount := 0
  leftVolume := 0
  leftRamp := 0
  rightVolume := 0
  rightRamp := 0
  envelopeCount := 0
  k1 := 0
  k1Ramp := 0
  k2 := 0
  k2Ramp := 0
  o1 := 0
  o2 := 0
  o3 := 0
  o4 := 0
  exbank := 0
  filtcount := 0

/-- The block after RESET (R260): the latch Idle, the line low. -/
def Chip.reset : Chip where
  voices := Vector.replicate 32 Voice.reset
  activeVoices := 0
  currentPage := 0
  mode := 0
  irqVector := 0x80#8
  irqLine := false

/-- The parameters of a block just constructed: the spec's defaults (R6) and, where it states none, the platform's (log entry
4). -/
def Params.reset : Params where
  masterClock := Config.masterClockPred + 1
  accumWidth := .full32
  bigEndian := false
  ulaw := .g711
  kShift := Config.kShift
  volLaw := .linear16
  interpMode := .linear

/-- The initial state, which is the state RESET produces (R261); no region mapped yet (log entry 5), no event issued, nothing
put out, no free value drawn. -/
def State.reset : State where
  chip := Chip.reset
  memory := Vector.replicate 4 none
  params := Params.reset
  input := []
  output := .nothing
  draws := 0

end Sys2Proof.Machine
end

