-- ==== Sys2Proof/Machine/Flags.lean ====
section
/-! DEFINITION. The fields of `control` (spec/10_state.md R14 to R23): every reader, and the writer of every bit that the
hardware writes. -/

namespace Sys2Proof.Machine

/-- `LOOP` by name (R18). -/
inductive LoopMode where
  | oneShot
  | uni
  | transWave
  | bowTie
deriving DecidableEq, Repr

/-- `LP` by name: the forms and coefficients of poles 3 and 4 (R19). -/
inductive PoleMode where
  | hpK2HpK2
  | lpK1HpK2
  | lpK2LpK2
  | lpK1LpK2
deriving DecidableEq, Repr

/-- `c` with bit `k` made `b`. -/
def setBit (c : Half) (k : Nat) (b : Bool) : Half :=
  if b then c ||| BitVec.twoPow 16 k else c &&& ~~~(BitVec.twoPow 16 k)

/-- `BS`, `control[15:14]` (R15). -/
def Voice.bs (v : Voice) : BitVec 2 := v.control.extractLsb' 14 2

/-- `CMPD`, `control[13]`: set is 8-bit u-law (R16). -/
def Voice.cmpd (v : Voice) : Bool := v.control.getLsbD 13

/-- `LP`, `control[9:8]` (R19). -/
def Voice.lp (v : Voice) : BitVec 2 := v.control.extractLsb' 8 2

/-- `IRQ`, `control[7]`: the voice's pending flag (R21). -/
def Voice.irq (v : Voice) : Bool := v.control.getLsbD 7

/-- `DIR`, `control[6]`: set is reverse (R20). -/
def Voice.dir (v : Voice) : Bool := v.control.getLsbD 6

/-- `IRQE`, `control[5]` (R21). -/
def Voice.irqe (v : Voice) : Bool := v.control.getLsbD 5

/-- `LOOP`, `control[4:3]` (R18). -/
def Voice.loop (v : Voice) : BitVec 2 := v.control.extractLsb' 3 2

/-- `LEI`, `control[2]` (R22). -/
def Voice.lei (v : Voice) : Bool := v.control.getLsbD 2

/-- `STOP1`, `control[1]` (R17). -/
def Voice.stop1 (v : Voice) : Bool := v.control.getLsbD 1

/-- `STOP0`, `control[0]` (R17). -/
def Voice.stop0 (v : Voice) : Bool := v.control.getLsbD 0

/-- A voice is stopped when either flag is set (R17). -/
def Voice.stopped (v : Voice) : Bool := v.stop0 || v.stop1

/-- The loop mode `LOOP` encodes (R18). -/
def Voice.loopMode (v : Voice) : LoopMode :=
  match v.loop.toNat with
  | 0 => .oneShot
  | 1 => .uni
  | 2 => .transWave
  | _ => .bowTie

/-- The pole configuration `LP` encodes (R19). -/
def Voice.poleMode (v : Voice) : PoleMode :=
  match v.lp.toNat with
  | 0 => .hpK2HpK2
  | 1 => .lpK1HpK2
  | 2 => .lpK2LpK2
  | _ => .lpK1LpK2

/-- `STOP0 <- 1` (R155, R211); `STOP1` is left as it was (R17). -/
def Voice.setStop0 (v : Voice) : Voice := { v with control := setBit v.control 0 true }

/-- `IRQ <- b` (R146, R233). -/
def Voice.setIrq (v : Voice) (b : Bool) : Voice := { v with control := setBit v.control 7 b }

/-- `DIR <- DIR ^ 1` (R149). -/
def Voice.flipDir (v : Voice) : Voice := { v with control := setBit v.control 6 (!v.dir) }

/-- `LOOP <- 0; LEI <- 1` (R148). -/
def Voice.endTransWave (v : Voice) : Voice :=
  { v with control := setBit (setBit (setBit v.control 3 false) 4 false) 2 true }

end Sys2Proof.Machine
end

