-- ==== Sys2Proof/Machine/Operands.lean ====
section
/-! DEFINITION. How a bus value becomes a register and a register a bus value (spec/30_encoding.md R67, R68), the parameters
as values (spec/00_scope.md R6), and the integers the FRAME rules compute with (R7, R8). -/

namespace Sys2Proof.Machine

/-! ### The bus (R67, R68) -/

/-- `value[15:0]`. -/
def cut16 (value : Word) : Half := value.extractLsb' 0 16

/-- `value[7:0]`. -/
def cut8 (value : Word) : Byte := value.extractLsb' 0 8

/-- `value[6:0]`. -/
def cut7 (value : Word) : Page := value.extractLsb' 0 7

/-- `value[4:0]`. -/
def cut5 (value : Word) : BitVec 5 := value.extractLsb' 0 5

/-- `ACCUM_MASK` (R6, R25). -/
def accumMask : AccumWidth → Word
  | .full32 => 0xFFFFFFFF#32
  | .low31 => 0x7FFFFFFF#32

/-- The mask of these parameters. -/
def posMask (p : Params) : Word := accumMask p.accumWidth

/-- `value[31:0] & ACCUM_MASK`: how a position is stored (R67). -/
def cutPosition (p : Params) (value : Word) : Word := value &&& posMask p

/-- A read returns the register zero-extended to 32 bits; a register of 32 bits returns its pattern (R68). -/
def zext {n : Nat} (x : BitVec n) : Word := x.setWidth 32

/-! ### Integers (R8) -/

/-- `a >>a n`: floor of `a / 2^n`. -/
def asr (a : Int) (n : Nat) : Int := a / 2 ^ n

/-- `clamp(x, lo, hi)`. -/
def clamp (x lo hi : Int) : Int := if x < lo then lo else if hi < x then hi else x

/-- A 32-bit register reading of a signed integer fits (R30, R199). -/
def fitsTap (y : Int) : Bool := decide (-2 ^ 31 ≤ y ∧ y ≤ 2 ^ 31 - 1)

/-! ### Parameters as values -/

/-- `K_SHIFT` as the number of bits it shifts (R191). -/
def kShiftBits : KShift → Nat
  | .none => 0
  | .two => 2

/-- One entry of the default u-law table: the G.711 expansion of the complemented byte (R176). -/
def g711 (b : Byte) : Sample :=
  let u := ~~~b
  let e := (u.extractLsb' 4 3).toNat
  let m := (u.extractLsb' 0 4).toNat
  let mag : Int := (((m * 8 + 0x84) * 2 ^ e : Nat) : Int) - 0x84
  BitVec.ofInt 16 (if u.getLsbD 7 then -mag else mag)

/-- `ULAW_TABLE[b]` (R174, R177). -/
def ulawEntry (t : UlawTable) (b : Byte) : Sample :=
  match t with
  | .g711 => g711 b
  | .entries v => v[b.toNat]'(b.isLt)

end Sys2Proof.Machine
end

