-- ==== Sys2Proof/Machine/Ops.lean ====
section
/-! DEFINITION. The named operations over the block's registers, the sample regions and the interrupt latch. -/

namespace Sys2Proof.Machine

/-! ### Voices -/

/-- Voice `i` (R11). -/
def Chip.voice (c : Chip) (i : VoiceIx) : Voice := c.voices[i.toNat]'(i.isLt)

/-- `V[i] <- v`. -/
def Chip.setVoice (c : Chip) (i : VoiceIx) (v : Voice) : Chip :=
  { c with voices := c.voices.set i.toNat v (i.isLt) }

/-- Voice `i` of the machine. -/
def State.voice (s : State) (i : VoiceIx) : Voice := s.chip.voice i

/-! ### What a bus event does to the machine (R61, R62) -/

/-- A write to a register of voice `i`: nothing is put out. -/
def State.writeVoice (s : State) (i : VoiceIx) (v : Voice) : State :=
  { s with chip := s.chip.setVoice i v, output := .nothing }

/-- A write to a chip-global register: nothing is put out. -/
def State.writeChip (s : State) (c : Chip) : State := { s with chip := c, output := .nothing }

/-- A write that changes nothing: `IRQV`, a reserved offset, a test page (R71, R72, R112). -/
def State.ignoreWrite (s : State) : State := { s with output := .nothing }

/-- A read that answers `value` and changes nothing (R62). -/
def State.answer (s : State) (value : Word) : State := { s with output := .data value }

/-! ### The interrupt latch (R233 to R238) -/

/-- The vector of the Idle latch (R5, R36). -/
def idleVector : Byte := 0x80#8

/-- The latch is Idle: bit 7 of the vector is set (R235). -/
def Chip.idle (c : Chip) : Bool := c.irqVector.getLsbD 7

/-- The latch takes voice `i`: the block's whole "trap entry" (R233, R237). -/
def Chip.latch (c : Chip) (i : VoiceIx) : Chip :=
  { c.setVoice i ((c.voice i).setIrq false) with irqVector := i.setWidth 8, irqLine := true }

/-- The acknowledge: the block's only "trap return" (R113, R238). -/
def Chip.acknowledge (c : Chip) : Chip := { c with irqVector := idleVector, irqLine := false }

/-- `IrqScan(i)` (R233). -/
def Chip.irqScan (c : Chip) (i : VoiceIx) : Chip :=
  if (c.voice i).irq then if c.idle then c.latch i else c else c

/-! ### Sample regions (R41 to R48) -/

/-- What an index inside a region reads as when no cell lists it: the array's byte there is 0 (log entry 5). -/
def unlistedByte : Byte := 0#8

/-- The byte the cells list at an index, or `unlistedByte`. -/
def cellAt : List Host.Cell → Nat → Byte
  | [], _ => unlistedByte
  | (a, b) :: rest, i => if a = i then b else cellAt rest i

/-- The cells with the byte at `i` made `b`, kept in canonical form. -/
def cellSet : List Host.Cell → Nat → Byte → List Host.Cell
  | [], i, b => if b = unlistedByte then [] else [(i, b)]
  | (a, x) :: rest, i, b =>
    if a < i then (a, x) :: cellSet rest i b
    else
      let tail := if a = i then rest else (a, x) :: rest
      if b = unlistedByte then tail else (i, b) :: tail

/-- Indexes strictly rising, all at least `lo` and below `len`, and no byte equal to `unlistedByte`. -/
def cellsWf (len : Nat) : Nat → List Host.Cell → Bool
  | _, [] => true
  | lo, (a, b) :: rest => decide (lo ≤ a) && decide (a < len) && decide (b ≠ unlistedByte) && cellsWf len (a + 1) rest

/-- The canonical form of a region. -/
def Region.wf (r : Region) : Bool := cellsWf r.len 0 r.cells

/-- The canonical form of the regions. -/
def Memory.wf (m : Memory) : Bool := m.toList.all fun r => (r.map Region.wf).getD true

/-- `REGION[r][i]` for an index inside the region. -/
def Region.byteAt (r : Region) (i : Nat) : Byte := cellAt r.cells i

/-- The platform stores a byte in a region (R53); an index beyond the array has no byte to store. -/
def Region.write (r : Region) (i : Nat) (b : Byte) : Region :=
  if i < r.len then { r with cells := cellSet r.cells i b } else r

/-- The cells of a list of bytes that begins at an index. -/
def cellsOf : Nat → List Byte → List Host.Cell
  | _, [] => []
  | i, b :: rest => if b = unlistedByte then cellsOf (i + 1) rest else (i, b) :: cellsOf (i + 1) rest

/-- The region that holds exactly these bytes, as the platform supplies it (R41). -/
def Region.ofBytes (bs : List Byte) : Region := ⟨bs.length, cellsOf 0 bs⟩

/-- `REGION[r]`. -/
def Memory.region (m : Memory) (r : BitVec 2) : Option Region := m[r.toNat]'(r.isLt)

/-- The platform changes region `r` between two events (R47, R53). No event of the block does. -/
def Memory.setRegion (m : Memory) (r : BitVec 2) (x : Option Region) : Memory := m.set r.toNat x (r.isLt)

/-- The platform maps or unmaps region `r` (R41, R53). -/
def State.platformMap (s : State) (r : BitVec 2) (x : Option Region) : State :=
  { s with memory := Memory.setRegion s.memory r x }

/-- The platform stores one byte in a mapped region `r` (R53). -/
def State.platformWrite (s : State) (r : BitVec 2) (i : Nat) (b : Byte) : State :=
  { s with memory := Memory.setRegion s.memory r ((Memory.region s.memory r).map (Region.write · i b)) }

/-- `RegionRead8(r, i)` with the count of draws before and after it (R44). -/
def Region.read8 (r : Region) (i draws : Nat) : Byte × Nat :=
  if i < r.len then (r.byteAt i, draws) else (Config.freeByte draws, draws + 1)

/-- `RegionRead16(r, i)` with the count of draws before and after it (R45, R46). -/
def Region.read16 (r : Region) (bigEndian : Bool) (i draws : Nat) : Sample × Nat :=
  if 2 * i + 1 < r.len then
    let b0 := r.byteAt (2 * i)
    let b1 := r.byteAt (2 * i + 1)
    (if bigEndian then b0 ++ b1 else b1 ++ b0, draws)
  else (Config.freeSample draws, draws + 1)

/-! ### Events -/

/-- The event word of an event on page `page`: the page bits come from the state (R64, R69). -/
def Event.word (page : Page) : Event → EventWord
  | .wr offset _ => wrWord page offset
  | .rd offset => rdWord page offset
  | .frame => packWord 1#2 0#1 0#7 0#4
  | .reset => packWord 2#2 0#1 0#7 0#4

/-- The bytes the decoder is given for an event on page `page`. -/
def Event.bytes (page : Page) (e : Event) : List Byte :=
  wordBytes (e.word page) ++
    match e with
    | .wr _ value => valueBytes value
    | _ => []

/-- The event an event word stands for, with the value beside it; class 3 stands for none (R73). -/
def Event.ofWord (w : EventWord) (value : Word) : Option Event :=
  if w.cls = 0#2 then some (if w.wr = 1#1 then .wr w.offset value else .rd w.offset)
  else if w.cls = 1#2 then some .frame
  else if w.cls = 2#2 then some .reset
  else none

/-- The machine about to take the event of word `w`, issued on the page the word names (log entry 1). A FRAME and a RESET do
not decode the page, so the page register is left alone. -/
def State.placeWord (s : State) (w : EventWord) (value : Word) : State :=
  match Event.ofWord w value with
  | none => s
  | some e =>
    { s with
      input := e :: s.input
      chip := if w.cls = 0#2 then { s.chip with currentPage := w.page } else s.chip }

end Sys2Proof.Machine
end

