-- ==== Sys2Proof/Machine/EveryPage.lean ====
section
/-! DEFINITION. The meanings of the registers of every page, offsets 14 and 15, and of the test pages, offsets 0 to 13
(spec/40_register_access.md sections 4 and 5). -/

namespace Sys2Proof.Machine

/-- `WR_IRQV` (R112): no state change; it neither latches nor acknowledges. -/
def execWrIrqv (s : State) : Result := .next s.ignoreWrite

/-- `RD_IRQV` (R113): answers the vector as it was, then acknowledges. -/
def execRdIrqv (s : State) : Result :=
  .next { s.answer (zext s.chip.irqVector) with chip := s.chip.acknowledge }

/-- `WR_PAGE` (R114). -/
def execWrPage (value : Word) (s : State) : Result := .next (s.writeChip { s.chip with currentPage := cut7 value })

/-- `RD_PAGE` (R115). -/
def execRdPage (s : State) : Result := .next (s.answer (zext s.chip.currentPage))

/-- `WR_TEST` (R130): no state change. -/
def execWrTest (s : State) : Result := .next s.ignoreWrite

/-- `RD_TEST` (R131): 0. -/
def execRdTest (s : State) : Result := .next (s.answer 0#32)

end Sys2Proof.Machine
end

