-- ==== Sys2Proof/Machine/Advance.lean ====
section
/-! DEFINITION. The voice state machine (spec/41_voice_state_machine.md): position, boundary logic with its four loop modes,
and the envelope ramps. `m` is `ACCUM_MASK`. All arithmetic on positions is modulo 2^32 and then masked (R142). -/

namespace Sys2Proof.Machine

/-! ### Position (R142) -/

/-- `Step(v)`. -/
def Voice.stepPosition (m : Word) (v : Voice) : Voice :=
  if v.dir then { v with accumulator := (v.accumulator - v.freqcount) &&& m }
  else { v with accumulator := (v.accumulator + v.freqcount) &&& m }

/-! ### Boundary (R143 to R150, R155, R157) -/

/-- The position is beyond the bound of its direction: strictly above `end` forward (R144), strictly below `start` in reverse
(R145), unsigned. -/
def Voice.crossed (v : Voice) : Bool :=
  if v.dir then v.accumulator.ult v.start else v.endPos.ult v.accumulator

/-- The completion flag: set when `IRQE` is, otherwise left as it is (R146). -/
def Voice.noteCompletion (v : Voice) : Voice := if v.irqe then v.setIrq true else v

/-- `Wrap(v)` (R147). -/
def Voice.wrap (m : Word) (v : Voice) : Voice :=
  if v.dir then { v with accumulator := (v.endPos - (v.start - v.accumulator)) &&& m }
  else { v with accumulator := (v.start + (v.accumulator - v.endPos)) &&& m }

/-- `Reflect(v)` and the direction flip after it (R149). -/
def Voice.reflect (m : Word) (v : Voice) : Voice :=
  if v.dir then { v with accumulator := (v.start + (v.start - v.accumulator)) &&& m }.flipDir
  else { v with accumulator := (v.endPos - (v.accumulator - v.endPos)) &&& m }.flipDir

/-- How far the position is beyond the bound of its direction, 0 when it is not. -/
def Voice.overshoot (v : Voice) : Nat :=
  if v.dir then v.start.toNat - v.accumulator.toNat else v.accumulator.toNat - v.endPos.toNat

/-- `Boundary(v)` (R143) with at most `rounds` boundary checks. Only a bow-tie reflection goes round again. `none`: a crossing
in bow-tie mode with `start > end`, which the spec refuses (R150, U3; log entry 7), or the rounds are used up. -/
def Voice.boundary (m : Word) : Nat → Voice → Option Voice
  | 0, _ => none
  | rounds + 1, v =>
    if v.lei then some v
    else if v.crossed then
      let v := v.noteCompletion
      match v.loopMode with
      | .oneShot => some v.setStop0
      | .uni => some (v.wrap m)
      | .transWave => some (v.wrap m).endTransWave
      | .bowTie => if v.endPos.ult v.start then none else Voice.boundary m rounds (v.reflect m)
    else some v

/-- The checks a chain can take: with `start < end` the chain ends after at most `1 + floor(d / (end - start))` reflections,
`d` the first overshoot (R150), and one check more finds no crossing. -/
def Voice.chainRounds (v : Voice) : Nat := v.overshoot / (v.endPos.toNat - v.start.toNat) + 2

/-! ### Envelope (R151 to R154) -/

/-- One ramped value: the ramp byte, signed, is added over the integers and the sum clamped to 0..65535; a ramp byte of 0
leaves the value alone (R153, R154). -/
def rampValue (x : Half) (ramp : Byte) : Half :=
  if ramp = 0#8 then x else BitVec.ofInt 16 (clamp (x.toNat + ramp.toInt) 0 65535)

/-- `VolumeRamps(v)` (R153). -/
def Voice.volumeRamps (v : Voice) : Voice :=
  { v with
    leftVolume := rampValue v.leftVolume v.leftRamp
    rightVolume := rampValue v.rightVolume v.rightRamp }

/-- `CoefficientRamps(v)` (R154): gated by `filtcount = 0`, which is then incremented modulo 8. -/
def Voice.coefficientRamps (v : Voice) : Voice :=
  if v.filtcount = 0#3 then
    { v with k1 := rampValue v.k1 v.k1Ramp, k2 := rampValue v.k2 v.k2Ramp, filtcount := v.filtcount + 1#3 }
  else { v with filtcount := v.filtcount + 1#3 }

/-- `Tick(v)` (R152). -/
def Voice.tick (v : Voice) : Voice := v.volumeRamps.coefficientRamps

/-- `Envelope(v)` (R151): a down-counter that stops at 0; a tick when it goes from 1 to 0. -/
def Voice.envelope (v : Voice) : Voice :=
  if v.envelopeCount = 0#16 then v
  else
    let v := { v with envelopeCount := v.envelopeCount - 1#16 }
    if v.envelopeCount = 0#16 then v.tick else v

/-! ### Advance (R140) -/

/-- `Advance(v)`: `Step`, `Boundary`, `Envelope`, in that order. `none` is `Boundary`'s. -/
def Voice.advance (m : Word) (v : Voice) : Option Voice :=
  let v := v.stepPosition m
  (v.boundary m v.chainRounds).map Voice.envelope

end Sys2Proof.Machine
end

