-- ==== Sys2Proof/Machine/Fetch.lean ====
section
/-! DEFINITION. Sample fetch, decode and interpolation (spec/42_fetch_decode_interp.md, spec/20_memory.md R42 to R49). An operation
that may draw a free value takes the count of draws and gives it back (log entry 6). -/

namespace Sys2Proof.Machine

/-- `next(p) = (p + 0x800) & ACCUM_MASK` (R43). -/
def nextPosition (m p : Word) : Word := (p + 0x800#32) &&& m

/-- `idx(v, p) = exbank + (p >> 11)`, without wrap (R43). -/
def Voice.sampleIndex (v : Voice) (p : Word) : Nat := v.exbank.toNat + p.toNat / 2 ^ 11

/-- `Pcm16(r, i)` or `Ulaw8(r, i)`, as `CMPD` selects (R173, R174). -/
def readSample (p : Params) (cmpd : Bool) (r : Region) (i draws : Nat) : Sample × Nat :=
  if cmpd then
    let b := r.read8 i draws
    (ulawEntry p.ulaw b.1, b.2)
  else r.read16 p.bigEndian i draws

/-- The two neighbouring samples and the count of draws after them. -/
structure Fetched where
  s1 : Sample
  s2 : Sample
  draws : Nat
deriving DecidableEq, Repr

/-- `Fetch(v, p)` (R170); `none` is `silent`, an unmapped region (R171). -/
def fetch (p : Params) (mem : Memory) (v : Voice) (pos : Word) (draws : Nat) : Option Fetched :=
  (Memory.region mem v.bs).map fun r =>
    let a := readSample p v.cmpd r (v.sampleIndex pos) draws
    let b := readSample p v.cmpd r (v.sampleIndex (nextPosition (posMask p) pos)) a.2
    ⟨a.1, b.1, b.2⟩

/-- `Interp(s1, s2, p)` (R178). -/
def interp (s1 s2 : Sample) (pos : Word) : Int :=
  let f : Int := (pos.toNat % 2 ^ 11 : Nat)
  asr (s1.toInt * (2048 - f) + s2.toInt * f) 11

/-- The interpolation `INTERP_MODE` names; `linear` is the only one (R179). -/
def interpolate : InterpMode → Sample → Sample → Word → Int
  | .linear => interp

/-- `Sample(v)` (R180), with the count of draws after it. -/
def takeSample (p : Params) (mem : Memory) (v : Voice) (draws : Nat) : Option (Int × Nat) :=
  (fetch p mem v v.accumulator draws).map fun f => (interpolate p.interpMode f.s1 f.s2 v.accumulator, f.draws)

end Sys2Proof.Machine
end

