-- ==== Sys2Proof/Machine/Filter.lean ====
section
/-! DEFINITION. The cascaded four-pole filter (spec/43_filter.md). All arithmetic is over the integers (R7, R190). -/

namespace Sys2Proof.Machine

/-- `LP(c, x, z)` (R193). -/
def lowPass (c x z : Int) : Int := asr (c * (x - z)) 14 + z

/-- `HP(c, x, zin, zown)` (R194). -/
def highPass (c x zin zown : Int) : Int := x - zin + asr (c * zown) 15 + asr zown 1

/-- The outputs of the four poles in one FRAME. -/
structure Poles where
  y1 : Int
  y2 : Int
  y3 : Int
  y4 : Int
deriving DecidableEq, Repr

/-- An effective coefficient, `k >> K_SHIFT` (R191). -/
def coefficient (k : KShift) (x : Half) : Int := ((x.toNat / 2 ^ kShiftBits k : Nat) : Int)

/-- The four outputs from the input `x` and the taps as they stand (R190, R192, R195, R198). -/
def Voice.poles (k : KShift) (v : Voice) (x : Int) : Poles :=
  let c1 := coefficient k v.k1
  let c2 := coefficient k v.k2
  let z2 := v.o2.toInt
  let z3 := v.o3.toInt
  let z4 := v.o4.toInt
  let y1 := lowPass c1 x v.o1.toInt
  let y2 := lowPass c1 y1 z2
  let y3 :=
    match v.poleMode with
    | .hpK2HpK2 => highPass c2 y2 z2 z3
    | .lpK1HpK2 => lowPass c1 y2 z3
    | .lpK2LpK2 => lowPass c2 y2 z3
    | .lpK1LpK2 => lowPass c1 y2 z3
  let y4 :=
    match v.poleMode with
    | .hpK2HpK2 => highPass c2 y3 z3 z4
    | .lpK1HpK2 => highPass c2 y3 z3 z4
    | .lpK2LpK2 => lowPass c2 y3 z4
    | .lpK1LpK2 => lowPass c2 y3 z4
  ⟨y1, y2, y3, y4⟩

/-- Every output fits a tap, 32 bits signed (R199). -/
def Poles.fit (y : Poles) : Bool := fitsTap y.y1 && fitsTap y.y2 && fitsTap y.y3 && fitsTap y.y4

/-- `o1 <- w1; o2 <- w2; o3 <- w3; o4 <- w4`. -/
def Voice.setTaps (v : Voice) (w1 w2 w3 w4 : Word) : Voice := { v with o1 := w1, o2 := w2, o3 := w3, o4 := w4 }

/-- What the filter leaves: the sample it returns, the voice with its new taps, and the count of draws after it. -/
structure Filtered where
  sample : Int
  voice : Voice
  draws : Nat
deriving DecidableEq, Repr

/-- `Filter(v, x)` (R190, R197). If an output leaves 32 bits signed, the four taps and the returned sample are free values
(R199, U5). -/
def Voice.filtered (k : KShift) (v : Voice) (x : Int) (draws : Nat) : Filtered :=
  let y := v.poles k x
  if y.fit then
    ⟨y.y4, v.setTaps (BitVec.ofInt 32 y.y1) (BitVec.ofInt 32 y.y2) (BitVec.ofInt 32 y.y3) (BitVec.ofInt 32 y.y4), draws⟩
  else
    ⟨Config.freeLevel draws,
      v.setTaps (Config.freeTap draws) (Config.freeTap (draws + 1)) (Config.freeTap (draws + 2)) (Config.freeTap (draws + 3)),
      draws + 4⟩

end Sys2Proof.Machine
end

