-- ==== Sys2Proof/Machine/Mixer.lean ====
section
/-! DEFINITION. Volume scaling, the service of one voice, the voice scan and the native rate (spec/44_mixer_frame.md). -/

namespace Sys2Proof.Machine

/-- The default `VOLSCALE` (R214). -/
def volScaleDefault (x : Int) (vol : Half) : Int := asr (x * ((vol.toNat + vol.toNat / 2 ^ 15 : Nat) : Int)) 16

/-- `VOLSCALE` (R213): the default, or a law of which R215 (a), (b), (c) fix some results and nothing fixes the others. -/
def volScale (law : VolLaw) (x : Int) (vol : Half) : Int :=
  match law with
  | .linear16 => volScaleDefault x vol
  | .other =>
    if vol = 0xFFFF#16 then x else if vol = 0#16 ∨ x = 0 then 0 else Config.freeVolume x vol

/-- The degenerate-region check (R211): all 32 bits of `start` and `end` compared. -/
def Voice.degenerateCheck (v : Voice) : Voice := if v.start = v.endPos then v.setStop0 else v

/-- What the service of one voice leaves: the voice, what it adds to `L` and to `R`, and the count of draws after it. -/
structure Serviced where
  voice : Voice
  left : Int
  right : Int
  draws : Nat
deriving DecidableEq, Repr

/-- The sound of a running voice: sample, filter and volume scaling from the state at the start of the FRAME; silence with the
taps untouched on an unmapped region (R171, R212, R213). -/
def Voice.sound (p : Params) (mem : Memory) (v : Voice) (draws : Nat) : Serviced :=
  match takeSample p mem v draws with
  | none => ⟨v, 0, 0, draws⟩
  | some (x, d) =>
    let f := v.filtered p.kShift x d
    ⟨f.voice, volScale p.volLaw f.sample v.leftVolume, volScale p.volLaw f.sample v.rightVolume, f.draws⟩

/-- `Service(i)` on the voice it services (R212). `none` is `Advance`'s. -/
def Voice.service (p : Params) (mem : Memory) (v : Voice) (draws : Nat) : Option Serviced :=
  let v := v.degenerateCheck
  if v.stopped then some ⟨v, 0, 0, draws⟩
  else
    let r := v.sound p mem draws
    (r.voice.advance (posMask p)).map fun w => ⟨w, r.left, r.right, r.draws⟩

/-- The stereo accumulator and the block inside a FRAME (R38). -/
structure Mix where
  chip : Chip
  left : Int
  right : Int
  draws : Nat
deriving DecidableEq, Repr

/-- `Service(i)` on the block (R212). -/
def Mix.service (p : Params) (mem : Memory) (x : Mix) (i : VoiceIx) : Option Mix :=
  ((x.chip.voice i).service p mem x.draws).map fun r =>
    ⟨x.chip.setVoice i r.voice, x.left + r.left, x.right + r.right, r.draws⟩

/-- The voices 0 to `n - 1` serviced in ascending order (R210). -/
def Mix.serviceBelow (p : Params) (mem : Memory) : Nat → Mix → Option Mix
  | 0, x => some x
  | n + 1, x => (Mix.serviceBelow p mem n x).bind fun y => y.service p mem (BitVec.ofNat 5 n)

/-- The voices 0 to `n - 1` scanned for a completion in ascending order (R210, R233). -/
def Chip.scanBelow : Nat → Chip → Chip
  | 0, c => c
  | n + 1, c => (Chip.scanBelow n c).irqScan (BitVec.ofNat 5 n)

/-- How many voices a FRAME services (R33). -/
def Chip.servicedCount (c : Chip) : Nat := c.activeVoices.toNat + 1

/-- The FRAME period in periods of `MASTER_CLOCK` (R219, R272). -/
def Chip.framePeriod (c : Chip) : Nat := 16 * c.servicedCount

/-- `NativeRate(s)`, in hertz, not rounded (R219). -/
def State.nativeRate (s : State) : ℚ := (s.params.masterClock : ℚ) / (s.chip.framePeriod : ℚ)

end Sys2Proof.Machine
end

