-- ==== Sys2Proof/Machine/Frame.lean ====
section
/-! DEFINITION. The meaning of `FRAME` (spec/44_mixer_frame.md R210). -/

namespace Sys2Proof.Machine

/-- The FRAME's accumulator at its start: `L` and `R` zero (R210). -/
def State.startMix (s : State) : Mix := ⟨s.chip, 0, 0, s.draws⟩

/-- The machine when a FRAME's voices have been serviced: the interrupt scan runs and `OUT(L, R)` is emitted (R210, R217). -/
def State.finishFrame (s : State) (x : Mix) : State :=
  { s with
    chip := x.chip.scanBelow s.chip.servicedCount
    draws := x.draws
    output := .audio x.left x.right }

/-- `FRAME` (R210). The count of serviced voices is read once, at the start. Where a voice's reflection chain has no meaning
the whole FRAME has none (R150; log entry 7). -/
def execFrame (s : State) : Result :=
  match Mix.serviceBelow s.params s.memory s.chip.servicedCount s.startMix with
  | none => .refused .bowTieChain
  | some x => .next (s.finishFrame x)

end Sys2Proof.Machine
end

