-- ==== Sys2Proof/Machine/HighView.lean ====
section
/-! DEFINITION. The meanings of the high view, offsets 1 to 13 (spec/40_register_access.md section 3). -/

namespace Sys2Proof.Machine

/-! ### The registers (R106 to R111, R116 to R125) -/

/-- `WR_START` (R106). -/
def execWrStart (voice : VoiceIx) (value : Word) (s : State) : Result :=
  .next (s.writeVoice voice { s.voice voice with start := cutPosition s.params value })

/-- `RD_START` (R107). -/
def execRdStart (voice : VoiceIx) (s : State) : Result := .next (s.answer (zext (s.voice voice).start))

/-- `WR_END` (R108). -/
def execWrEnd (voice : VoiceIx) (value : Word) (s : State) : Result :=
  .next (s.writeVoice voice { s.voice voice with endPos := cutPosition s.params value })

/-- `RD_END` (R109). -/
def execRdEnd (voice : VoiceIx) (s : State) : Result := .next (s.answer (zext (s.voice voice).endPos))

/-- `WR_ACCUMULATOR` (R110). -/
def execWrAccumulator (voice : VoiceIx) (value : Word) (s : State) : Result :=
  .next (s.writeVoice voice { s.voice voice with accumulator := cutPosition s.params value })

/-- `RD_ACCUMULATOR` (R111). -/
def execRdAccumulator (voice : VoiceIx) (s : State) : Result := .next (s.answer (zext (s.voice voice).accumulator))

/-- `WR_O4` (R116). -/
def execWrO4 (voice : VoiceIx) (value : Word) (s : State) : Result :=
  .next (s.writeVoice voice { s.voice voice with o4 := value })

/-- `RD_O4` (R117). -/
def execRdO4 (voice : VoiceIx) (s : State) : Result := .next (s.answer (zext (s.voice voice).o4))

/-- `WR_O3` (R118). -/
def execWrO3 (voice : VoiceIx) (value : Word) (s : State) : Result :=
  .next (s.writeVoice voice { s.voice voice with o3 := value })

/-- `RD_O3` (R119). -/
def execRdO3 (voice : VoiceIx) (s : State) : Result := .next (s.answer (zext (s.voice voice).o3))

/-- `WR_O2` (R120). -/
def execWrO2 (voice : VoiceIx) (value : Word) (s : State) : Result :=
  .next (s.writeVoice voice { s.voice voice with o2 := value })

/-- `RD_O2` (R121). -/
def execRdO2 (voice : VoiceIx) (s : State) : Result := .next (s.answer (zext (s.voice voice).o2))

/-- `WR_O1` (R122). -/
def execWrO1 (voice : VoiceIx) (value : Word) (s : State) : Result :=
  .next (s.writeVoice voice { s.voice voice with o1 := value })

/-- `RD_O1` (R123). -/
def execRdO1 (voice : VoiceIx) (s : State) : Result := .next (s.answer (zext (s.voice voice).o1))

/-- `WR_EXBANK` (R124). -/
def execWrExbank (voice : VoiceIx) (value : Word) (s : State) : Result :=
  .next (s.writeVoice voice { s.voice voice with exbank := value })

/-- `RD_EXBANK` (R125). -/
def execRdExbank (voice : VoiceIx) (s : State) : Result := .next (s.answer (zext (s.voice voice).exbank))

/-! ### The reserved offsets 9 to 13 (R128, R129) -/

/-- `WR_RSVD_H9` (R128): no state change. -/
def execWrRsvdH9 (s : State) : Result := .next s.ignoreWrite

/-- `RD_RSVD_H9` (R129): 0. -/
def execRdRsvdH9 (s : State) : Result := .next (s.answer 0#32)

/-- `WR_RSVD_H10` (R128): no state change. -/
def execWrRsvdH10 (s : State) : Result := .next s.ignoreWrite

/-- `RD_RSVD_H10` (R129): 0. -/
def execRdRsvdH10 (s : State) : Result := .next (s.answer 0#32)

/-- `WR_RSVD_H11` (R128): no state change. -/
def execWrRsvdH11 (s : State) : Result := .next s.ignoreWrite

/-- `RD_RSVD_H11` (R129): 0. -/
def execRdRsvdH11 (s : State) : Result := .next (s.answer 0#32)

/-- `WR_RSVD_H12` (R128): no state change. -/
def execWrRsvdH12 (s : State) : Result := .next s.ignoreWrite

/-- `RD_RSVD_H12` (R129): 0. -/
def execRdRsvdH12 (s : State) : Result := .next (s.answer 0#32)

/-- `WR_RSVD_H13` (R128): no state change. -/
def execWrRsvdH13 (s : State) : Result := .next s.ignoreWrite

/-- `RD_RSVD_H13` (R129): 0. -/
def execRdRsvdH13 (s : State) : Result := .next (s.answer 0#32)

end Sys2Proof.Machine
end

