-- ==== Sys2Proof/Machine/LowView.lean ====
section
/-! DEFINITION. The meanings of `CONTROL`, which both views show, and of the low view, offsets 1 to 13
(spec/40_register_access.md sections 1 and 2). -/

namespace Sys2Proof.Machine

/-! ### `control` (R80, R81) -/

/-- `WR_CONTROL` (R80): all 16 bits are replaced; neither the vector nor the line is touched. -/
def execWrControl (voice : VoiceIx) (value : Word) (s : State) : Result :=
  .next (s.writeVoice voice { s.voice voice with control := cut16 value })

/-- `RD_CONTROL` (R81). -/
def execRdControl (voice : VoiceIx) (s : State) : Result := .next (s.answer (zext (s.voice voice).control))

/-! ### The low view (R82 to R101) -/

/-- `WR_FREQCOUNT` (R82). -/
def execWrFreqcount (voice : VoiceIx) (value : Word) (s : State) : Result :=
  .next (s.writeVoice voice { s.voice voice with freqcount := value })

/-- `RD_FREQCOUNT` (R83). -/
def execRdFreqcount (voice : VoiceIx) (s : State) : Result := .next (s.answer (zext (s.voice voice).freqcount))

/-- `WR_LEFT_VOLUME` (R84). -/
def execWrLeftVolume (voice : VoiceIx) (value : Word) (s : State) : Result :=
  .next (s.writeVoice voice { s.voice voice with leftVolume := cut16 value })

/-- `RD_LEFT_VOLUME` (R85). -/
def execRdLeftVolume (voice : VoiceIx) (s : State) : Result := .next (s.answer (zext (s.voice voice).leftVolume))

/-- `WR_LEFT_RAMP` (R86). -/
def execWrLeftRamp (voice : VoiceIx) (value : Word) (s : State) : Result :=
  .next (s.writeVoice voice { s.voice voice with leftRamp := cut8 value })

/-- `RD_LEFT_RAMP` (R87). -/
def execRdLeftRamp (voice : VoiceIx) (s : State) : Result := .next (s.answer (zext (s.voice voice).leftRamp))

/-- `WR_RIGHT_VOLUME` (R88). -/
def execWrRightVolume (voice : VoiceIx) (value : Word) (s : State) : Result :=
  .next (s.writeVoice voice { s.voice voice with rightVolume := cut16 value })

/-- `RD_RIGHT_VOLUME` (R89). -/
def execRdRightVolume (voice : VoiceIx) (s : State) : Result := .next (s.answer (zext (s.voice voice).rightVolume))

/-- `WR_RIGHT_RAMP` (R90). -/
def execWrRightRamp (voice : VoiceIx) (value : Word) (s : State) : Result :=
  .next (s.writeVoice voice { s.voice voice with rightRamp := cut8 value })

/-- `RD_RIGHT_RAMP` (R91). -/
def execRdRightRamp (voice : VoiceIx) (s : State) : Result := .next (s.answer (zext (s.voice voice).rightRamp))

/-- `WR_ENVELOPE_COUNT` (R92). -/
def execWrEnvelopeCount (voice : VoiceIx) (value : Word) (s : State) : Result :=
  .next (s.writeVoice voice { s.voice voice with envelopeCount := cut16 value })

/-- `RD_ENVELOPE_COUNT` (R93). -/
def execRdEnvelopeCount (voice : VoiceIx) (s : State) : Result := .next (s.answer (zext (s.voice voice).envelopeCount))

/-- `WR_K2` (R94). -/
def execWrK2 (voice : VoiceIx) (value : Word) (s : State) : Result :=
  .next (s.writeVoice voice { s.voice voice with k2 := cut16 value })

/-- `RD_K2` (R95). -/
def execRdK2 (voice : VoiceIx) (s : State) : Result := .next (s.answer (zext (s.voice voice).k2))

/-- `WR_K2_RAMP` (R96). -/
def execWrK2Ramp (voice : VoiceIx) (value : Word) (s : State) : Result :=
  .next (s.writeVoice voice { s.voice voice with k2Ramp := cut8 value })

/-- `RD_K2_RAMP` (R97). -/
def execRdK2Ramp (voice : VoiceIx) (s : State) : Result := .next (s.answer (zext (s.voice voice).k2Ramp))

/-- `WR_K1` (R98). -/
def execWrK1 (voice : VoiceIx) (value : Word) (s : State) : Result :=
  .next (s.writeVoice voice { s.voice voice with k1 := cut16 value })

/-- `RD_K1` (R99). -/
def execRdK1 (voice : VoiceIx) (s : State) : Result := .next (s.answer (zext (s.voice voice).k1))

/-- `WR_K1_RAMP` (R100). -/
def execWrK1Ramp (voice : VoiceIx) (value : Word) (s : State) : Result :=
  .next (s.writeVoice voice { s.voice voice with k1Ramp := cut8 value })

/-- `RD_K1_RAMP` (R101). -/
def execRdK1Ramp (voice : VoiceIx) (s : State) : Result := .next (s.answer (zext (s.voice voice).k1Ramp))

/-! ### The chip-global registers of the low view (R102 to R105) and its reserved offset (R126, R127) -/

/-- `WR_ACTIVE_VOICES` (R102): the same register from every low page. -/
def execWrActiveVoices (value : Word) (s : State) : Result :=
  .next (s.writeChip { s.chip with activeVoices := cut5 value })

/-- `RD_ACTIVE_VOICES` (R103). -/
def execRdActiveVoices (s : State) : Result := .next (s.answer (zext s.chip.activeVoices))

/-- `WR_MODE` (R104): stored, and read by no rule. -/
def execWrMode (value : Word) (s : State) : Result := .next (s.writeChip { s.chip with mode := cut8 value })

/-- `RD_MODE` (R105). -/
def execRdMode (s : State) : Result := .next (s.answer (zext s.chip.mode))

/-- `WR_RSVD_L13` (R126): no state change. -/
def execWrRsvdL13 (s : State) : Result := .next s.ignoreWrite

/-- `RD_RSVD_L13` (R127): 0. -/
def execRdRsvdL13 (s : State) : Result := .next (s.answer 0#32)

end Sys2Proof.Machine
end

