-- ==== Sys2Proof/Machine/Reset.lean ====
section
/-! DEFINITION. The meaning of `RESET` (spec/70_reset_and_hazards.md R260). -/

namespace Sys2Proof.Machine

/-- `RESET` (R260): every element of the block's state at its reset value; the parameters and the sample memory untouched. -/
def execReset (s : State) : Result := .next { s with chip := Chip.reset, output := .nothing }

end Sys2Proof.Machine
end

