-- ==== Sys2Proof/Machine/Dispatch.lean ====
section
/-! DEFINITION. One arm for each event, each a direct call of its meaning. -/

namespace Sys2Proof.Machine

-- An operand the event's effect does not read (the view of `control`, the page of a chip-global register) is `_`.
def exec (i : Instr) (s : State) : Host.Outcome State Fault Refusal :=
  match i with
  | .rdControl _ voice => Sys2Proof.Machine.execRdControl voice s
  | .rdFreqcount voice => Sys2Proof.Machine.execRdFreqcount voice s
  | .rdLeftVolume voice => Sys2Proof.Machine.execRdLeftVolume voice s
  | .rdLeftRamp voice => Sys2Proof.Machine.execRdLeftRamp voice s
  | .rdRightVolume voice => Sys2Proof.Machine.execRdRightVolume voice s
  | .rdRightRamp voice => Sys2Proof.Machine.execRdRightRamp voice s
  | .rdEnvelopeCount voice => Sys2Proof.Machine.execRdEnvelopeCount voice s
  | .rdK2 voice => Sys2Proof.Machine.execRdK2 voice s
  | .rdK2Ramp voice => Sys2Proof.Machine.execRdK2Ramp voice s
  | .rdK1 voice => Sys2Proof.Machine.execRdK1 voice s
  | .rdK1Ramp voice => Sys2Proof.Machine.execRdK1Ramp voice s
  | .rdActiveVoices _ => Sys2Proof.Machine.execRdActiveVoices s
  | .rdMode _ => Sys2Proof.Machine.execRdMode s
  | .rdRsvdL13 _ => Sys2Proof.Machine.execRdRsvdL13 s
  | .rdStart voice => Sys2Proof.Machine.execRdStart voice s
  | .rdEnd voice => Sys2Proof.Machine.execRdEnd voice s
  | .rdAccumulator voice => Sys2Proof.Machine.execRdAccumulator voice s
  | .rdO4 voice => Sys2Proof.Machine.execRdO4 voice s
  | .rdO3 voice => Sys2Proof.Machine.execRdO3 voice s
  | .rdO2 voice => Sys2Proof.Machine.execRdO2 voice s
  | .rdO1 voice => Sys2Proof.Machine.execRdO1 voice s
  | .rdExbank voice => Sys2Proof.Machine.execRdExbank voice s
  | .rdRsvdH9 _ => Sys2Proof.Machine.execRdRsvdH9 s
  | .rdRsvdH10 _ => Sys2Proof.Machine.execRdRsvdH10 s
  | .rdRsvdH11 _ => Sys2Proof.Machine.execRdRsvdH11 s
  | .rdRsvdH12 _ => Sys2Proof.Machine.execRdRsvdH12 s
  | .rdRsvdH13 _ => Sys2Proof.Machine.execRdRsvdH13 s
  | .rdIrqv _ => Sys2Proof.Machine.execRdIrqv s
  | .rdPage _ => Sys2Proof.Machine.execRdPage s
  | .rdTest _ _ => Sys2Proof.Machine.execRdTest s
  | .wrControl _ voice value => Sys2Proof.Machine.execWrControl voice value s
  | .wrFreqcount voice value => Sys2Proof.Machine.execWrFreqcount voice value s
  | .wrLeftVolume voice value => Sys2Proof.Machine.execWrLeftVolume voice value s
  | .wrLeftRamp voice value => Sys2Proof.Machine.execWrLeftRamp voice value s
  | .wrRightVolume voice value => Sys2Proof.Machine.execWrRightVolume voice value s
  | .wrRightRamp voice value => Sys2Proof.Machine.execWrRightRamp voice value s
  | .wrEnvelopeCount voice value => Sys2Proof.Machine.execWrEnvelopeCount voice value s
  | .wrK2 voice value => Sys2Proof.Machine.execWrK2 voice value s
  | .wrK2Ramp voice value => Sys2Proof.Machine.execWrK2Ramp voice value s
  | .wrK1 voice value => Sys2Proof.Machine.execWrK1 voice value s
  | .wrK1Ramp voice value => Sys2Proof.Machine.execWrK1Ramp voice value s
  | .wrActiveVoices _ value => Sys2Proof.Machine.execWrActiveVoices value s
  | .wrMode _ value => Sys2Proof.Machine.execWrMode value s
  | .wrRsvdL13 _ _ => Sys2Proof.Machine.execWrRsvdL13 s
  | .wrStart voice value => Sys2Proof.Machine.execWrStart voice value s
  | .wrEnd voice value => Sys2Proof.Machine.execWrEnd voice value s
  | .wrAccumulator voice value => Sys2Proof.Machine.execWrAccumulator voice value s
  | .wrO4 voice value => Sys2Proof.Machine.execWrO4 voice value s
  | .wrO3 voice value => Sys2Proof.Machine.execWrO3 voice value s
  | .wrO2 voice value => Sys2Proof.Machine.execWrO2 voice value s
  | .wrO1 voice value => Sys2Proof.Machine.execWrO1 voice value s
  | .wrExbank voice value => Sys2Proof.Machine.execWrExbank voice value s
  | .wrRsvdH9 _ _ => Sys2Proof.Machine.execWrRsvdH9 s
  | .wrRsvdH10 _ _ => Sys2Proof.Machine.execWrRsvdH10 s
  | .wrRsvdH11 _ _ => Sys2Proof.Machine.execWrRsvdH11 s
  | .wrRsvdH12 _ _ => Sys2Proof.Machine.execWrRsvdH12 s
  | .wrRsvdH13 _ _ => Sys2Proof.Machine.execWrRsvdH13 s
  | .wrIrqv _ _ => Sys2Proof.Machine.execWrIrqv s
  | .wrPage _ value => Sys2Proof.Machine.execWrPage value s
  | .wrTest _ _ _ => Sys2Proof.Machine.execWrTest s
  | .frame => Sys2Proof.Machine.execFrame s
  | .reset => Sys2Proof.Machine.execReset s

end Sys2Proof.Machine
end

