-- ==== Sys2Proof/Machine/Step.lean ====
section
/-! DEFINITION. One step: the block takes the next event the environment has issued (spec/20_memory.md R50; log entry 1). -/

namespace Sys2Proof.Machine

/-- With no event issued nothing changes (R60). Otherwise the first event is taken: its event word is formed with the page
register's page (R64, R69), decoded and executed. -/
def step (s : State) : Host.Outcome State Fault Refusal :=
  match s.input with
  | [] => .next s
  | e :: rest =>
    match decode (e.bytes s.chip.currentPage) with
    | .ok (i, _) => exec i { s with input := rest }
    | .error d => .refused (.undecodable d)

/-- The machine with the event of bits `w` issued next, on the page its event word names (log entry 1). -/
def State.withFetchWord (s : State) (nbits w : Nat) : State :=
  s.placeWord (BitVec.ofNat 14 (w % 2 ^ nbits)) (BitVec.ofNat 32 (w % 2 ^ nbits / 2 ^ 16))

end Sys2Proof.Machine
end

