-- ==== Sys2Proof/Machine/Pseudo.lean ====
section
/-! DEFINITION. The pseudo-events of spec/30_encoding.md R75, each the list of events it expands to and nothing more, and a render
pass (spec/44_mixer_frame.md R218). -/

namespace Sys2Proof.Machine

/-- `PAGE n`. -/
def pseudoPage (n : Word) : List Event := [.wr 15#4 n]

/-- `VOICE v`: the low view of voice `v`. -/
def pseudoVoice (v : VoiceIx) : List Event := pseudoPage (zext v)

/-- `VOICEH v`: the high view of voice `v`. -/
def pseudoVoiceHigh (v : VoiceIx) : List Event := pseudoPage (32#32 + zext v)

/-- `ACK`. -/
def pseudoAck : List Event := [.rd 14#4]

/-- `RENDER n`. -/
def pseudoRender (n : Nat) : List Event := List.replicate n .frame

/-- `STOP v`, with `c` the value `RD CONTROL` returns for the voice in this state. -/
def pseudoStop (s : State) (v : VoiceIx) : List Event :=
  pseudoVoice v ++ [.wr 0#4 (zext (s.voice v).control ||| 0x0003#32)]

/-- `FLUSH`: empty, the model has no clock (R51). -/
def pseudoFlush : List Event := []

/-- A render pass of `n` FRAMEs: the state after it and the outputs in order; `none` if a FRAME has no meaning (R218). -/
def State.render : Nat → State → Option (State × List Output)
  | 0, s => some (s, [])
  | n + 1, s =>
    match execFrame s with
    | .next t => (State.render n t).map fun r => (r.1, t.output :: r.2)
    | .fault _ => none
    | .refused _ => none

end Sys2Proof.Machine
end

