-- ==== Sys2Proof/Safety.lean ====
section
/-! DEFINITION. What a sound state is (spec/10_state.md R39 and the canonical forms), when a FRAME has a meaning
(spec/41_voice_state_machine.md R150), and what "nothing else changes" means, in the terms the statements use. -/

namespace Sys2Proof.Machine

/-! ### The invariant (R39) -/

/-- The positions of a voice are within `ACCUM_MASK` (R39). -/
def Voice.Within (m : Word) (v : Voice) : Prop :=
  v.start &&& m = v.start ∧ v.endPos &&& m = v.endPos ∧ v.accumulator &&& m = v.accumulator

/-- The latch is Idle with the line low, or Pending with a voice index and the line high (R36, R37, R235). -/
def Chip.LatchOk (c : Chip) : Prop :=
  (c.irqVector = 0x80#8 ∧ c.irqLine = false) ∨ (c.irqVector.toNat ≤ 31 ∧ c.irqLine = true)

/-- The parameters are ones R6 and R177 admit: the clock is positive and a table has the G.711 values at entries 0 and
255. -/
def ParamsOk (p : Params) : Prop :=
  0 < p.masterClock ∧ (ulawEntry p.ulaw 0x00#8).toInt = -32124 ∧ (ulawEntry p.ulaw 0xFF#8).toInt = 0

/-- What holds of every state a run reaches (R39), with the canonical form of the regions. The other ranges of R39 are the
widths of the fields. -/
def State.Inv (s : State) : Prop :=
  (∀ i : VoiceIx, (s.voice i).Within (posMask s.params)) ∧ s.chip.LatchOk ∧ Memory.wf s.memory = true ∧ ParamsOk s.params

/-! ### When a FRAME has a meaning (R150, U3) -/

/-- The voice is running, in bow-tie mode with `start > end` and no inhibit, and its step crosses the bound of its direction: the
one configuration the spec gives no meaning. -/
def Voice.NoMeaning (m : Word) (v : Voice) : Prop :=
  v.stopped = false ∧ v.lei = false ∧ v.loopMode = .bowTie ∧ v.endPos.toNat < v.start.toNat ∧
    (v.stepPosition m).crossed = true

/-- Voice `i` is serviced by a FRAME (R33). -/
def Chip.Services (c : Chip) (i : VoiceIx) : Prop := i.toNat ≤ c.activeVoices.toNat

/-! ### Frames -/

/-- The block's global registers are the same. -/
def Chip.SameGlobals (c d : Chip) : Prop :=
  d.activeVoices = c.activeVoices ∧ d.currentPage = c.currentPage ∧ d.mode = c.mode ∧
    d.irqVector = c.irqVector ∧ d.irqLine = c.irqLine

/-- What no event writes is the same: the sample memory, the parameters, and the events still to come. -/
def State.SameSurroundings (s t : State) : Prop :=
  t.memory = s.memory ∧ t.params = s.params ∧ t.input = s.input

/-- Everything but voice `i` and the output is the same. -/
def State.SameButVoice (i : VoiceIx) (s t : State) : Prop :=
  (∀ j : VoiceIx, j ≠ i → t.voice j = s.voice j) ∧ Chip.SameGlobals s.chip t.chip ∧ s.SameSurroundings t ∧
    t.draws = s.draws

/-- Everything but the output is the same. -/
def State.SameButOutput (s t : State) : Prop :=
  t.chip = s.chip ∧ s.SameSurroundings t ∧ t.draws = s.draws

/-- The event completes, stores `w` in voice `i`, puts nothing out and changes nothing else. -/
def State.StoresVoice (s : State) (e : Instr) (i : VoiceIx) (w : Voice) : Prop :=
  ∃ t, exec e s = .next t ∧ t.voice i = w ∧ s.SameButVoice i t ∧ t.output = .nothing

/-- The event completes, leaves the block as `c`, puts nothing out and changes nothing outside the block. -/
def State.StoresChip (s : State) (e : Instr) (c : Chip) : Prop :=
  ∃ t, exec e s = .next t ∧ t.chip = c ∧ s.SameSurroundings t ∧ t.draws = s.draws ∧ t.output = .nothing

/-- The event completes, puts `value` out and changes nothing else. -/
def State.Answers (s : State) (e : Instr) (value : Word) : Prop :=
  ∃ t, exec e s = .next t ∧ t.output = .data value ∧ s.SameButOutput t

/-- The event completes, puts nothing out and changes nothing. -/
def State.Ignores (s : State) (e : Instr) : Prop :=
  ∃ t, exec e s = .next t ∧ t.output = .nothing ∧ s.SameButOutput t

/-! ### The register map (R66), as the event each access is -/

/-- The low view of voice `v`, with `x` written. -/
def lowViewMap (v : VoiceIx) (x : Word) : List (Event × Instr) :=
  [(.wr 0#4 x, .wrControl 0#1 v x), (.rd 0#4, .rdControl 0#1 v),
   (.wr 1#4 x, .wrFreqcount v x), (.rd 1#4, .rdFreqcount v),
   (.wr 2#4 x, .wrLeftVolume v x), (.rd 2#4, .rdLeftVolume v),
   (.wr 3#4 x, .wrLeftRamp v x), (.rd 3#4, .rdLeftRamp v),
   (.wr 4#4 x, .wrRightVolume v x), (.rd 4#4, .rdRightVolume v),
   (.wr 5#4 x, .wrRightRamp v x), (.rd 5#4, .rdRightRamp v),
   (.wr 6#4 x, .wrEnvelopeCount v x), (.rd 6#4, .rdEnvelopeCount v),
   (.wr 7#4 x, .wrK2 v x), (.rd 7#4, .rdK2 v),
   (.wr 8#4 x, .wrK2Ramp v x), (.rd 8#4, .rdK2Ramp v),
   (.wr 9#4 x, .wrK1 v x), (.rd 9#4, .rdK1 v),
   (.wr 10#4 x, .wrK1Ramp v x), (.rd 10#4, .rdK1Ramp v),
   (.wr 11#4 x, .wrActiveVoices v x), (.rd 11#4, .rdActiveVoices v),
   (.wr 12#4 x, .wrMode v x), (.rd 12#4, .rdMode v),
   (.wr 13#4 x, .wrRsvdL13 v x), (.rd 13#4, .rdRsvdL13 v)]

/-- The high view of voice `v`, with `x` written. -/
def highViewMap (v : VoiceIx) (x : Word) : List (Event × Instr) :=
  [(.wr 0#4 x, .wrControl 1#1 v x), (.rd 0#4, .rdControl 1#1 v),
   (.wr 1#4 x, .wrStart v x), (.rd 1#4, .rdStart v),
   (.wr 2#4 x, .wrEnd v x), (.rd 2#4, .rdEnd v),
   (.wr 3#4 x, .wrAccumulator v x), (.rd 3#4, .rdAccumulator v),
   (.wr 4#4 x, .wrO4 v x), (.rd 4#4, .rdO4 v),
   (.wr 5#4 x, .wrO3 v x), (.rd 5#4, .rdO3 v),
   (.wr 6#4 x, .wrO2 v x), (.rd 6#4, .rdO2 v),
   (.wr 7#4 x, .wrO1 v x), (.rd 7#4, .rdO1 v),
   (.wr 8#4 x, .wrExbank v x), (.rd 8#4, .rdExbank v),
   (.wr 9#4 x, .wrRsvdH9 v x), (.rd 9#4, .rdRsvdH9 v),
   (.wr 10#4 x, .wrRsvdH10 v x), (.rd 10#4, .rdRsvdH10 v),
   (.wr 11#4 x, .wrRsvdH11 v x), (.rd 11#4, .rdRsvdH11 v),
   (.wr 12#4 x, .wrRsvdH12 v x), (.rd 12#4, .rdRsvdH12 v),
   (.wr 13#4 x, .wrRsvdH13 v x), (.rd 13#4, .rdRsvdH13 v)]

/-- The offsets that mean the same on every page, with `x` written. -/
def everyPageMap (p : Page) (x : Word) : List (Event × Instr) :=
  [(.wr 14#4 x, .wrIrqv p x), (.rd 14#4, .rdIrqv p), (.wr 15#4 x, .wrPage p x), (.rd 15#4, .rdPage p)]

/-! ### Runs -/

/-- `n` steps: the state after them and what each put out, in order; `none` if a step has no next state. -/
def State.steps : Nat → State → Option (State × List Output)
  | 0, s => some (s, [])
  | n + 1, s =>
    match step s with
    | .next t => (State.steps n t).map fun r => (r.1, t.output :: r.2)
    | .fault _ => none
    | .refused _ => none

/-! ### Voices -/

/-- The position is strictly above `end` forward, strictly below `start` in reverse, as unsigned numbers (R144, R145). -/
def Voice.Crosses (v : Voice) : Prop :=
  (v.dir = false ∧ v.endPos.toNat < v.accumulator.toNat) ∨ (v.dir = true ∧ v.accumulator.toNat < v.start.toNat)

/-- `control` after the completion flag of a detected crossing (R146). -/
def Voice.notedControl (v : Voice) : Half := if v.irqe then v.control ||| 0x0080#16 else v.control

/-- `n` calls of `Advance`. -/
def Voice.advances (m : Word) : Nat → Voice → Option Voice
  | 0, v => some v
  | n + 1, v => (v.advance m).bind (Voice.advances m n)

/-- How far a bow-tie voice has come on its way from `start` to `end` and back, a round being `2 * (end - start)`. -/
def Voice.phase (v : Voice) : Int :=
  if v.dir then 2 * (v.endPos.toNat - v.start.toNat) - (v.accumulator.toNat - v.start.toNat)
  else v.accumulator.toNat - v.start.toNat

/-- An integer that 16 bits signed hold. -/
def Fits16 (x : Int) : Prop := -32768 ≤ x ∧ x ≤ 32767

/-- The four taps are within 16 bits signed. -/
def Voice.SmallTaps (v : Voice) : Prop :=
  Fits16 v.o1.toInt ∧ Fits16 v.o2.toInt ∧ Fits16 v.o3.toInt ∧ Fits16 v.o4.toInt

/-- Poles 3 and 4 are both low-pass (R195, values 2 and 3 of `LP`). -/
def Voice.AllLowPass (v : Voice) : Prop := v.lp = 2#2 ∨ v.lp = 3#2

/-! ### The interrupt machinery set aside (R239) -/

/-- The two states differ at most in the `IRQ` flags, the vector, the line, the output and the events still to come. -/
def State.SameButInterrupts (s t : State) : Prop :=
  (∀ i : VoiceIx, (t.voice i).setIrq false = (s.voice i).setIrq false) ∧ t.chip.activeVoices = s.chip.activeVoices ∧
    t.chip.currentPage = s.chip.currentPage ∧ t.chip.mode = s.chip.mode ∧ t.memory = s.memory ∧ t.params = s.params ∧
    t.draws = s.draws

end Sys2Proof.Machine
end

