-- ==== Sys2Proof/Certificates/Slice0/Obligations.lean ====
section
/-! DEFINITION. The statements for the provers. Each docstring names the rule of spec/ it formalises. -/

open Sys2Proof Sys2Proof.Machine

/-! ### Events, their words and the register map (spec/30_encoding.md) -/

/-- R69, R70: decoding the bytes of a well-formed event gives the event back and consumes exactly its bytes, for every operand. The
byte layout of the event word is the model's choice (log entry 3). -/
def Obligations.DecodeOfEncodeIsTheEvent : Prop :=
  ∀ (i : Instr) (rest : List Byte), i.wf = true → decode (encode i ++ rest) = .ok (i, rest)

/-- R69, R70, R73: of the 2^14 event words, class 3 is no event; every other decodes, and a bus word is the word of the event it
decodes to, with the value it carries when it is a `WR`; class 1 is `FRAME` and class 2 `RESET` whatever bits 11:0 are. -/
def Obligations.EveryEventWordIsClassified : Prop :=
  ∀ (w : EventWord) (x : Word),
    (w.cls = 3#2 → decodeWord w x = .error .notAnEvent) ∧
    (w.cls = 2#2 → decodeWord w x = .ok .reset) ∧
    (w.cls = 1#2 → decodeWord w x = .ok .frame) ∧
    (w.cls = 0#2 → ∃ i, decodeWord w x = .ok i ∧ i.wf = true ∧ eventWord i = w ∧
      busValue i = if w.wr = 1#1 then some x else none)

/-- Words written out from the patterns of spec/40_register_access.md, 44_mixer_frame.md R210 and 70_reset_and_hazards.md R260. -/
def Obligations.SampleEventWordsDecode : Prop :=
  decodeWord 0b00100001010000#14 0xC128#32 = .ok (.wrControl 0#1 5#5 0xC128#32) ∧
  decodeWord 0b00001000000011#14 0#32 = .ok (.rdAccumulator 0#5) ∧
  decodeWord 0b00110000000101#14 7#32 = .ok (.wrTest 0#6 5#4 7#32) ∧
  decodeWord 0b00011111111110#14 0#32 = .ok (.rdIrqv 127#7) ∧
  decodeWord 0b01000000000000#14 0#32 = .ok .frame ∧
  decodeWord 0b10000000000000#14 0#32 = .ok .reset ∧
  decodeWord 0b11000000000000#14 0#32 = .error .notAnEvent

/-- A step takes the next event and runs what its bytes decode to, on the state with that event taken; with no event
issued nothing changes (log entry 1 for the list of issued events). -/
def Obligations.StepRunsTheDecodedEvent : Prop :=
  (∀ (s : State) (e : Event) (rest : List Event) (i : Instr) (tail : List Byte),
    s.input = e :: rest → decode (e.bytes s.chip.currentPage) = .ok (i, tail) → step s = exec i { s with input := rest }) ∧
  (∀ s : State, s.input = [] → step s = .next s)

/-- R73: there is no illegal bus access. On every page every event decodes to a well-formed event of its own word. -/
def Obligations.EveryIssuedEventDecodes : Prop :=
  ∀ (p : Page) (e : Event), ∃ i, decode (e.bytes p) = .ok (i, []) ∧ i.wf = true ∧ eventWord i = e.word p

/-- R65, R66: what every offset means in the low view, the high view, a test page and on every page, as the event a step runs. -/
def Obligations.RegisterMapOfEveryPage : Prop :=
  ∀ (s : State) (v : VoiceIx) (p : Page) (x : Word) (rest : List Event),
    (p.toNat = v.toNat → ∀ q ∈ lowViewMap v x,
      step { s with chip := { s.chip with currentPage := p }, input := q.1 :: rest } =
        exec q.2 { s with chip := { s.chip with currentPage := p }, input := rest }) ∧
    (p.toNat = 32 + v.toNat → ∀ q ∈ highViewMap v x,
      step { s with chip := { s.chip with currentPage := p }, input := q.1 :: rest } =
        exec q.2 { s with chip := { s.chip with currentPage := p }, input := rest }) ∧
    (64 ≤ p.toNat → ∀ o : Offset, o.toNat ≤ 13 →
      step { s with chip := { s.chip with currentPage := p }, input := .wr o x :: rest } =
        exec (.wrTest p.testLow o x) { s with chip := { s.chip with currentPage := p }, input := rest } ∧
      step { s with chip := { s.chip with currentPage := p }, input := .rd o :: rest } =
        exec (.rdTest p.testLow o) { s with chip := { s.chip with currentPage := p }, input := rest }) ∧
    (∀ q ∈ everyPageMap p x,
      step { s with chip := { s.chip with currentPage := p }, input := q.1 :: rest } =
        exec q.2 { s with chip := { s.chip with currentPage := p }, input := rest })

/-! ### Bus events (spec/40_register_access.md) -/

/-- R67: every `WR` to a register completes, stores the low bits of the value cut to the register's width, and changes nothing
else. -/
def Obligations.WritesStoreTheCutValue : Prop :=
  ∀ (s : State) (v : VoiceIx) (view : BitVec 1) (low : BitVec 5) (page : Page) (x : Word),
    s.StoresVoice (.wrControl view v x) v { s.voice v with control := x.extractLsb' 0 16 } ∧
    s.StoresVoice (.wrFreqcount v x) v { s.voice v with freqcount := x } ∧
    s.StoresVoice (.wrExbank v x) v { s.voice v with exbank := x } ∧
    s.StoresVoice (.wrStart v x) v { s.voice v with start := x &&& posMask s.params } ∧
    s.StoresVoice (.wrEnd v x) v { s.voice v with endPos := x &&& posMask s.params } ∧
    s.StoresVoice (.wrAccumulator v x) v { s.voice v with accumulator := x &&& posMask s.params } ∧
    s.StoresVoice (.wrLeftVolume v x) v { s.voice v with leftVolume := x.extractLsb' 0 16 } ∧
    s.StoresVoice (.wrRightVolume v x) v { s.voice v with rightVolume := x.extractLsb' 0 16 } ∧
    s.StoresVoice (.wrK1 v x) v { s.voice v with k1 := x.extractLsb' 0 16 } ∧
    s.StoresVoice (.wrK2 v x) v { s.voice v with k2 := x.extractLsb' 0 16 } ∧
    s.StoresVoice (.wrEnvelopeCount v x) v { s.voice v with envelopeCount := x.extractLsb' 0 16 } ∧
    s.StoresVoice (.wrLeftRamp v x) v { s.voice v with leftRamp := x.extractLsb' 0 8 } ∧
    s.StoresVoice (.wrRightRamp v x) v { s.voice v with rightRamp := x.extractLsb' 0 8 } ∧
    s.StoresVoice (.wrK1Ramp v x) v { s.voice v with k1Ramp := x.extractLsb' 0 8 } ∧
    s.StoresVoice (.wrK2Ramp v x) v { s.voice v with k2Ramp := x.extractLsb' 0 8 } ∧
    s.StoresVoice (.wrO1 v x) v { s.voice v with o1 := x } ∧
    s.StoresVoice (.wrO2 v x) v { s.voice v with o2 := x } ∧
    s.StoresVoice (.wrO3 v x) v { s.voice v with o3 := x } ∧
    s.StoresVoice (.wrO4 v x) v { s.voice v with o4 := x } ∧
    s.StoresChip (.wrActiveVoices low x) { s.chip with activeVoices := x.extractLsb' 0 5 } ∧
    s.StoresChip (.wrMode low x) { s.chip with mode := x.extractLsb' 0 8 } ∧
    s.StoresChip (.wrPage page x) { s.chip with currentPage := x.extractLsb' 0 7 }

/-- R68: every `RD` completes and returns the register zero-extended to 32 bits, the taps as they are, and 0 at a reserved offset or
on a test page; but for the read of the vector it changes nothing. -/
def Obligations.ReadsReturnTheRegister : Prop :=
  ∀ (s : State) (v : VoiceIx) (view : BitVec 1) (low : BitVec 5) (page : Page) (testLow : BitVec 6) (o : Offset),
    s.Answers (.rdControl view v) ((s.voice v).control.setWidth 32) ∧
    s.Answers (.rdFreqcount v) (s.voice v).freqcount ∧
    s.Answers (.rdLeftVolume v) ((s.voice v).leftVolume.setWidth 32) ∧
    s.Answers (.rdLeftRamp v) ((s.voice v).leftRamp.setWidth 32) ∧
    s.Answers (.rdRightVolume v) ((s.voice v).rightVolume.setWidth 32) ∧
    s.Answers (.rdRightRamp v) ((s.voice v).rightRamp.setWidth 32) ∧
    s.Answers (.rdEnvelopeCount v) ((s.voice v).envelopeCount.setWidth 32) ∧
    s.Answers (.rdK2 v) ((s.voice v).k2.setWidth 32) ∧
    s.Answers (.rdK2Ramp v) ((s.voice v).k2Ramp.setWidth 32) ∧
    s.Answers (.rdK1 v) ((s.voice v).k1.setWidth 32) ∧
    s.Answers (.rdK1Ramp v) ((s.voice v).k1Ramp.setWidth 32) ∧
    s.Answers (.rdActiveVoices low) (s.chip.activeVoices.setWidth 32) ∧
    s.Answers (.rdMode low) (s.chip.mode.setWidth 32) ∧
    s.Answers (.rdStart v) (s.voice v).start ∧
    s.Answers (.rdEnd v) (s.voice v).endPos ∧
    s.Answers (.rdAccumulator v) (s.voice v).accumulator ∧
    s.Answers (.rdO4 v) (s.voice v).o4 ∧
    s.Answers (.rdO3 v) (s.voice v).o3 ∧
    s.Answers (.rdO2 v) (s.voice v).o2 ∧
    s.Answers (.rdO1 v) (s.voice v).o1 ∧
    s.Answers (.rdExbank v) (s.voice v).exbank ∧
    s.Answers (.rdPage page) (s.chip.currentPage.setWidth 32) ∧
    (∃ t, exec (.rdIrqv page) s = .next t ∧ t.output = .data (s.chip.irqVector.setWidth 32)) ∧
    s.Answers (.rdRsvdL13 low) 0#32 ∧ s.Answers (.rdRsvdH9 v) 0#32 ∧ s.Answers (.rdRsvdH10 v) 0#32 ∧
    s.Answers (.rdRsvdH11 v) 0#32 ∧ s.Answers (.rdRsvdH12 v) 0#32 ∧ s.Answers (.rdRsvdH13 v) 0#32 ∧
    s.Answers (.rdTest testLow o) 0#32

/-- R71: at a reserved offset a `WR` is accepted and changes nothing, a `RD` returns 0 and changes nothing. -/
def Obligations.ReservedOffsetsDoNothing : Prop :=
  ∀ (s : State) (v : VoiceIx) (low : BitVec 5) (x : Word),
    s.Ignores (.wrRsvdL13 low x) ∧ s.Answers (.rdRsvdL13 low) 0#32 ∧
    s.Ignores (.wrRsvdH9 v x) ∧ s.Answers (.rdRsvdH9 v) 0#32 ∧
    s.Ignores (.wrRsvdH10 v x) ∧ s.Answers (.rdRsvdH10 v) 0#32 ∧
    s.Ignores (.wrRsvdH11 v x) ∧ s.Answers (.rdRsvdH11 v) 0#32 ∧
    s.Ignores (.wrRsvdH12 v x) ∧ s.Answers (.rdRsvdH12 v) 0#32 ∧
    s.Ignores (.wrRsvdH13 v x) ∧ s.Answers (.rdRsvdH13 v) 0#32

/-- R130, R131: on a test page, offsets 0 to 13, a `WR` changes no state and a `RD` returns 0, both as an event with any operands and
as the step from such a page; no voice is reached, offset 0 included. -/
def Obligations.TestPagesAreStubs : Prop :=
  (∀ (s : State) (low : BitVec 6) (o : Offset) (x : Word), s.Ignores (.wrTest low o x) ∧ s.Answers (.rdTest low o) 0#32) ∧
  (∀ (s : State) (o : Offset) (x : Word) (rest : List Event), 64 ≤ s.chip.currentPage.toNat → o.toNat ≤ 13 →
    (∃ t, step { s with input := .wr o x :: rest } = .next t ∧ t.output = .nothing ∧ t.chip = s.chip ∧
      t.memory = s.memory ∧ t.params = s.params ∧ t.draws = s.draws ∧ t.input = rest) ∧
    (∃ t, step { s with input := .rd o :: rest } = .next t ∧ t.output = .data 0#32 ∧ t.chip = s.chip ∧
      t.memory = s.memory ∧ t.params = s.params ∧ t.draws = s.draws ∧ t.input = rest))

/-- R112: a write of the vector changes no state: it neither latches, nor acknowledges, nor changes the line. -/
def Obligations.VectorWriteIsIgnored : Prop :=
  ∀ (s : State) (page : Page) (x : Word), s.Ignores (.wrIrqv page x)

/-- R113: reading the vector returns it as it was, then frees the latch and lowers the line, and touches nothing else; in Idle it
changes nothing; a second read returns `0x80`. -/
def Obligations.VectorReadAcknowledges : Prop :=
  ∀ (s : State) (page page' : Page), ∃ t, exec (.rdIrqv page) s = .next t ∧
    t.output = .data (s.chip.irqVector.setWidth 32) ∧ t.chip.irqVector = 0x80#8 ∧ t.chip.irqLine = false ∧
    (∀ i : VoiceIx, t.voice i = s.voice i) ∧ t.chip.activeVoices = s.chip.activeVoices ∧
    t.chip.currentPage = s.chip.currentPage ∧ t.chip.mode = s.chip.mode ∧ s.SameSurroundings t ∧ t.draws = s.draws ∧
    (s.chip.irqVector = 0x80#8 → s.chip.irqLine = false → t.chip = s.chip) ∧
    ∃ u, exec (.rdIrqv page') t = .next u ∧ u.output = .data 0x80#32

/-- R132: a `WR` and then a `RD` of the same offset, as two steps from a page that shows the register, return the stored bits
zero-extended: the low view and the high view of voice `v`, offset 15 included. -/
def Obligations.RegistersReadBackWhatWasWritten : Prop :=
  ∀ (s : State) (v : VoiceIx) (x : Word),
    (s.chip.currentPage.toNat = v.toNat →
      ∀ q ∈ [(0#4, (x.extractLsb' 0 16).setWidth 32), (1#4, x), (2#4, (x.extractLsb' 0 16).setWidth 32),
          (3#4, (x.extractLsb' 0 8).setWidth 32), (4#4, (x.extractLsb' 0 16).setWidth 32),
          (5#4, (x.extractLsb' 0 8).setWidth 32), (6#4, (x.extractLsb' 0 16).setWidth 32),
          (7#4, (x.extractLsb' 0 16).setWidth 32), (8#4, (x.extractLsb' 0 8).setWidth 32),
          (9#4, (x.extractLsb' 0 16).setWidth 32), (10#4, (x.extractLsb' 0 8).setWidth 32),
          (11#4, (x.extractLsb' 0 5).setWidth 32), (12#4, (x.extractLsb' 0 8).setWidth 32),
          (15#4, (x.extractLsb' 0 7).setWidth 32)],
        ∃ t u, step { s with input := [.wr q.1 x, .rd q.1] } = .next t ∧ step t = .next u ∧ u.output = .data q.2) ∧
    (s.chip.currentPage.toNat = 32 + v.toNat →
      ∀ q ∈ [(0#4, (x.extractLsb' 0 16).setWidth 32), (1#4, x &&& posMask s.params), (2#4, x &&& posMask s.params),
          (3#4, x &&& posMask s.params), (4#4, x), (5#4, x), (6#4, x), (7#4, x), (8#4, x),
          (15#4, (x.extractLsb' 0 7).setWidth 32)],
        ∃ t u, step { s with input := [.wr q.1 x, .rd q.1] } = .next t ∧ step t = .next u ∧ u.output = .data q.2)

/-- R75: the two events of `STOP v`, from any page, set both stop flags of voice `v` and leave every other bit of its `control`. -/
def Obligations.StopPseudoEventStopsTheVoice : Prop :=
  ∀ (s : State) (v : VoiceIx) (rest : List Event),
    ∃ t u, step { s with input := pseudoStop s v ++ rest } = .next t ∧ step t = .next u ∧ u.input = rest ∧
      u.voice v = { s.voice v with control := (s.voice v).control ||| 0x0003#16 } ∧
      (∀ j : VoiceIx, j ≠ v → u.voice j = s.voice j) ∧ u.chip.currentPage.toNat = v.toNat ∧
      u.chip.irqVector = s.chip.irqVector ∧ u.chip.irqLine = s.chip.irqLine ∧ u.memory = s.memory

/-! ### Reset (spec/70_reset_and_hazards.md) -/

/-- R260: `RESET` completes, sets every element of the state to its reset value and does nothing else. -/
def Obligations.ResetSetsEveryElement : Prop :=
  ∀ s : State, ∃ t, exec .reset s = .next t ∧ t.output = .nothing ∧
    (∀ i : VoiceIx, (t.voice i).control = 0x0003#16 ∧ (t.voice i).start = 0 ∧ (t.voice i).endPos = 0 ∧
      (t.voice i).accumulator = 0 ∧ (t.voice i).freqcount = 0 ∧ (t.voice i).leftVolume = 0 ∧ (t.voice i).leftRamp = 0 ∧
      (t.voice i).rightVolume = 0 ∧ (t.voice i).rightRamp = 0 ∧ (t.voice i).envelopeCount = 0 ∧ (t.voice i).k1 = 0 ∧
      (t.voice i).k1Ramp = 0 ∧ (t.voice i).k2 = 0 ∧ (t.voice i).k2Ramp = 0 ∧ (t.voice i).o1 = 0 ∧ (t.voice i).o2 = 0 ∧
      (t.voice i).o3 = 0 ∧ (t.voice i).o4 = 0 ∧ (t.voice i).exbank = 0 ∧ (t.voice i).filtcount = 0) ∧
    t.chip.activeVoices = 0 ∧ t.chip.currentPage = 0 ∧ t.chip.mode = 0 ∧ t.chip.irqVector = 0x80#8 ∧
    t.chip.irqLine = false ∧ s.SameSurroundings t ∧ t.draws = s.draws

/-- R261: the state a model starts in is, of the block, the state `RESET` produces from any state. -/
def Obligations.InitialBlockIsTheResetBlock : Prop :=
  ∀ s t : State, exec .reset s = .next t → t.chip = State.reset.chip

/-- R263: from the reset block, with no bus event, any number of FRAMEs give silence and leave the block, the draws and the line
as they were. -/
def Obligations.ResetBlockStaysSilent : Prop :=
  ∀ (n : Nat) (s : State), s.chip = Chip.reset →
    ∃ t, s.render n = some (t, List.replicate n (.audio 0 0)) ∧ t.chip = s.chip ∧ t.draws = s.draws ∧ s.SameSurroundings t

/-! ### Every step -/

/-- R39: the invariant holds at reset. That no region is mapped there and what the parameters are is the model's choice (log entries 4
and 5). -/
def Obligations.ResetHasTheInvariant : Prop := State.reset.Inv

/-- R39: every step that completes keeps the invariant: positions within `ACCUM_MASK`, a legal latch that agrees with the line,
regions in canonical form, admissible parameters. The canonical form of the regions is the model's (log entry 5). -/
def Obligations.StepKeepsTheInvariant : Prop :=
  ∀ s t : State, s.Inv → step s = .next t → t.Inv

/-- R41, R47, R262: no event changes the parameters or a byte of sample memory. That a step takes the first of the issued events and leaves
the others, and takes none where none is issued, is the model's choice (log entry 1). -/
def Obligations.NoEventWritesMemoryOrParameters : Prop :=
  ∀ s t : State, step s = .next t → t.memory = s.memory ∧ t.params = s.params ∧ t.input = s.input.tail

/-- R230: a step on a bus event or a `RESET` always completes; a step on a `FRAME` completes or is refused for a bow-tie chain (log entry
7), never for another reason. -/
def Obligations.NoEventRaisesAnything : Prop :=
  (∀ (s : State) (e : Event) (rest : List Event), s.input = e :: rest → e ≠ .frame → ∃ t, step s = .next t) ∧
  (∀ (s : State) (rest : List Event), s.input = .frame :: rest → (∃ t, step s = .next t) ∨ step s = .refused .bowTieChain)

/-! ### FRAME (spec/44_mixer_frame.md) -/

/-- R210, R150, U3 (log entry 7): a FRAME completes, from every state and with one stereo frame put out, unless a serviced voice is in
the one configuration the spec gives no meaning (running bow-tie, `start > end`, a crossing detected); then it is refused. -/
def Obligations.FrameCompletesUnlessNoMeaning : Prop :=
  ∀ s : State,
    ((∀ i : VoiceIx, s.chip.Services i → ¬ (s.voice i).NoMeaning (posMask s.params)) →
      ∃ t l r, exec .frame s = .next t ∧ t.output = .audio l r) ∧
    ((∃ i : VoiceIx, s.chip.Services i ∧ (s.voice i).NoMeaning (posMask s.params)) →
      exec .frame s = .refused .bowTieChain)

/-- R210, R212, R216, R217: a FRAME services the voices 0 to `active_voices` once each, in order, emits the exact sums of their
contributions, then scans the same voices for completions; nothing else changes. `d k` is the count of free values drawn before voice
`k`, the model's (log entry 6). -/
def Obligations.FrameIsTheSumOfItsVoices : Prop :=
  ∀ s t : State, exec .frame s = .next t →
    ∃ (r : Nat → Serviced) (d : Nat → Nat) (c : Chip),
      d 0 = s.draws ∧ t.draws = d (s.chip.activeVoices.toNat + 1) ∧
      (∀ i : VoiceIx, s.chip.Services i →
        (s.voice i).service s.params s.memory (d i.toNat) = some (r i.toNat) ∧ d (i.toNat + 1) = (r i.toNat).draws ∧
          c.voice i = (r i.toNat).voice) ∧
      (∀ i : VoiceIx, ¬ s.chip.Services i → c.voice i = s.voice i) ∧ Chip.SameGlobals s.chip c ∧
      t.chip = c.scanBelow (s.chip.activeVoices.toNat + 1) ∧
      t.output = .audio (∑ k ∈ Finset.range (s.chip.activeVoices.toNat + 1), (r k).left)
        (∑ k ∈ Finset.range (s.chip.activeVoices.toNat + 1), (r k).right) ∧ s.SameSurroundings t

/-- R210, R220: a FRAME leaves the voices above `active_voices`, the count, the page and the mode as they were. -/
def Obligations.FrameLeavesUnservicedVoices : Prop :=
  ∀ s t : State, exec .frame s = .next t →
    (∀ i : VoiceIx, ¬ s.chip.Services i → t.voice i = s.voice i) ∧ t.chip.activeVoices = s.chip.activeVoices ∧
      t.chip.currentPage = s.chip.currentPage ∧ t.chip.mode = s.chip.mode

/-- R11, R14, R17, R22: what a FRAME never writes in any voice: the bounds, the pitch, the ramps, `exbank`, and of `control` the bits
15:8, 5 and 1; and it never clears a stop flag or the inhibit. -/
def Obligations.FrameNeverWritesHostRegisters : Prop :=
  ∀ (s t : State) (i : VoiceIx), exec .frame s = .next t →
    (t.voice i).start = (s.voice i).start ∧ (t.voice i).endPos = (s.voice i).endPos ∧
    (t.voice i).freqcount = (s.voice i).freqcount ∧ (t.voice i).leftRamp = (s.voice i).leftRamp ∧
    (t.voice i).rightRamp = (s.voice i).rightRamp ∧ (t.voice i).k1Ramp = (s.voice i).k1Ramp ∧
    (t.voice i).k2Ramp = (s.voice i).k2Ramp ∧ (t.voice i).exbank = (s.voice i).exbank ∧
    (t.voice i).control &&& 0xFF22#16 = (s.voice i).control &&& 0xFF22#16 ∧
    ((s.voice i).stop0 = true → (t.voice i).stop0 = true) ∧ ((s.voice i).lei = true → (t.voice i).lei = true)

/-- R141, R211: a stopped voice keeps everything and adds nothing; a voice with `start = end` gets `STOP0` and nothing else, and adds
nothing. -/
def Obligations.StoppedAndDegenerateVoices : Prop :=
  ∀ (p : Params) (mem : Memory) (v : Voice) (d : Nat),
    (v.start ≠ v.endPos → v.stopped = true → v.service p mem d = some ⟨v, 0, 0, d⟩) ∧
    (v.start = v.endPos → v.service p mem d = some ⟨{ v with control := v.control ||| 0x0001#16 }, 0, 0, d⟩)

/-- R212, R213, R180, R171: what a running voice does in a FRAME. On a mapped region it is the fetch at the position held at the start of
the FRAME, interpolated there and filtered; that sample goes to the left by the left volume and to the right by the right one, as they
stood; the filter's voice is then advanced, and `Advance` keeps the filter's taps. On an unmapped region it adds nothing, keeps its
taps, draws nothing, and is advanced as any other. The count of draws is the model's (log entry 6). -/
def Obligations.RunningVoiceSoundsThenAdvances : Prop :=
  ∀ (p : Params) (mem : Memory) (v : Voice) (d : Nat), v.stopped = false → v.start ≠ v.endPos →
    (∀ r : Region, Memory.region mem v.bs = some r →
      ∃ (f : Fetched) (y : Filtered), fetch p mem v v.accumulator d = some f ∧
        y = v.filtered p.kShift (interp f.s1 f.s2 v.accumulator) f.draws ∧
        v.service p mem d =
          (y.voice.advance (posMask p)).map (fun w =>
            ⟨w, volScale p.volLaw y.sample v.leftVolume, volScale p.volLaw y.sample v.rightVolume, y.draws⟩) ∧
        ∀ w, y.voice.advance (posMask p) = some w →
          w.o1 = y.voice.o1 ∧ w.o2 = y.voice.o2 ∧ w.o3 = y.voice.o3 ∧ w.o4 = y.voice.o4) ∧
    (Memory.region mem v.bs = none →
      v.service p mem d = (v.advance (posMask p)).map (fun w => ⟨w, 0, 0, d⟩) ∧
      ∀ w, v.advance (posMask p) = some w → w.o1 = v.o1 ∧ w.o2 = v.o2 ∧ w.o3 = v.o3 ∧ w.o4 = v.o4)

/-- R72, R210: the page has no influence on a FRAME: from two states that differ in the page alone it puts out the same, and leaves
states that differ in the page alone. Where the FRAME draws free values, both draw them at the same counts, and that the same count
gives the same value is the model's choice (log entry 6). -/
def Obligations.PageDoesNotReachTheAudio : Prop :=
  ∀ (s t : State) (p : Page), exec .frame s = .next t →
    exec .frame { s with chip := { s.chip with currentPage := p } } =
      .next { t with chip := { t.chip with currentPage := p } }

/-- R218, R75: `RENDER n` is `n` successive FRAMEs: `n` steps on its expansion into events, the outputs in order and the state after them,
and no result where one of the steps has none; `RENDER 0` is no event; `RENDER (a + b)` is `RENDER a` and then `RENDER b`. -/
def Obligations.RenderSplitsAnywhere : Prop :=
  (∀ (n : Nat) (s : State) (rest : List Event),
    { s with input := pseudoRender n ++ rest }.steps n = (s.render n).map fun r => ({ r.1 with input := rest }, r.2)) ∧
  (∀ s : State, s.render 0 = some (s, [])) ∧
  (∀ (a b : Nat) (s : State),
    s.render (a + b) = (s.render a).bind fun x => (x.1.render b).map fun y => (y.1, x.2 ++ y.2))

/-- R219: a FRAME lasts `16 * (active_voices + 1)` periods of `MASTER_CLOCK`, `NativeRate` is the clock divided by that, exactly; with
32 voices it is 1/32 of what it is with one. -/
def Obligations.NativeRateOfTheCount : Prop :=
  (∀ s : State, s.chip.framePeriod = 16 * (s.chip.activeVoices.toNat + 1) ∧
    s.nativeRate * (16 * ((s.chip.activeVoices.toNat : ℚ) + 1)) = s.params.masterClock) ∧
  (∀ s t : State, s.params.masterClock = t.params.masterClock → s.chip.activeVoices = 31#5 → t.chip.activeVoices = 0#5 →
    s.nativeRate * 32 = t.nativeRate)

/-- R214: the default volume law, which is the spec's own choice of a law; its value at 65535, at 0 and below 32768. -/
def Obligations.DefaultVolumeLaw : Prop :=
  ∀ (x : Int) (vol : Half),
    volScale .linear16 x vol = (x * (vol.toNat + vol.toNat / 2 ^ 15)) / 2 ^ 16 ∧
    volScale .linear16 x 0xFFFF#16 = x ∧ volScale .linear16 x 0#16 = 0 ∧
    (vol.toNat < 32768 → volScale .linear16 x vol = x * vol.toNat / 65536)

/-- R214: the default law never makes a sample louder, and is monotone in the volume: the result rises with it for a sample that is not
negative and falls with it for one that is not positive. -/
def Obligations.DefaultVolumeNeverAmplifies : Prop :=
  ∀ (x : Int) (vol vol' : Half),
    (0 ≤ x → 0 ≤ volScale .linear16 x vol ∧ volScale .linear16 x vol ≤ x) ∧
    (x ≤ 0 → x ≤ volScale .linear16 x vol ∧ volScale .linear16 x vol ≤ 0) ∧
    (0 ≤ x → vol.toNat ≤ vol'.toNat → volScale .linear16 x vol ≤ volScale .linear16 x vol') ∧
    (x ≤ 0 → vol.toNat ≤ vol'.toNat → volScale .linear16 x vol' ≤ volScale .linear16 x vol)

/-- R215: what every admissible volume law satisfies, whichever the platform supplies. -/
def Obligations.EveryVolumeLaw : Prop :=
  ∀ (law : VolLaw) (x : Int) (vol : Half),
    volScale law x 0xFFFF#16 = x ∧ volScale law x 0#16 = 0 ∧ volScale law 0 vol = 0

/-- R216: with the default volume law, `K_SHIFT = 2` and every serviced voice in mode 2 or 3 with taps within 16 bits, a FRAME's sums
are at most 2^20 in magnitude and the taps stay within 16 bits. -/
def Obligations.FrameOutputIsBounded : Prop :=
  ∀ (s t : State) (l r : Int), s.params.kShift = .two → s.params.volLaw = .linear16 →
    (∀ i : VoiceIx, s.chip.Services i → (s.voice i).AllLowPass ∧ (s.voice i).SmallTaps) →
    exec .frame s = .next t → t.output = .audio l r →
      |l| ≤ 2 ^ 20 ∧ |r| ≤ 2 ^ 20 ∧ ∀ i : VoiceIx, s.chip.Services i → (t.voice i).SmallTaps

/-! ### The voice state machine (spec/41_voice_state_machine.md) -/

/-- R142: the position moves by the pitch, up or down as `DIR` says, modulo 2^32 and then masked; nothing else moves. -/
def Obligations.StepMovesThePosition : Prop :=
  ∀ (a : AccumWidth) (v : Voice),
    (v.dir = false → (v.stepPosition (accumMask a)).accumulator.toNat =
      (v.accumulator.toNat + v.freqcount.toNat) % 2 ^ 32 % ((accumMask a).toNat + 1)) ∧
    (v.dir = true → (v.stepPosition (accumMask a)).accumulator.toNat =
      (v.accumulator.toNat + 2 ^ 32 - v.freqcount.toNat) % 2 ^ 32 % ((accumMask a).toNat + 1)) ∧
    v.stepPosition (accumMask a) = { v with accumulator := (v.stepPosition (accumMask a)).accumulator }

/-- R143, R144, R145, R157: with no crossing after the step, or while `LEI` is set, `Advance` is the step and the envelope. -/
def Obligations.NoCrossingPlaysOn : Prop :=
  ∀ (a : AccumWidth) (v : Voice), v.lei = true ∨ ¬ (v.stepPosition (accumMask a)).Crosses →
    v.advance (accumMask a) = some (v.stepPosition (accumMask a)).envelope

/-- R155, R146: a crossing in one-shot mode sets `STOP0` (and `IRQ` when enabled), keeps the overshot position, and the envelope still
runs. -/
def Obligations.OneShotCrossingStops : Prop :=
  ∀ (a : AccumWidth) (v : Voice), v.lei = false → v.loopMode = .oneShot → (v.stepPosition (accumMask a)).Crosses →
    v.advance (accumMask a) =
      some { v.stepPosition (accumMask a) with control := v.notedControl ||| 0x0001#16 }.envelope

/-- R147, R146: a crossing in uni-directional mode carries the overshoot to the other bound, once; only the position and `IRQ` change
before the envelope. -/
def Obligations.UniLoopCrossingWraps : Prop :=
  ∀ (a : AccumWidth) (v : Voice), v.lei = false → v.loopMode = .uni → (v.stepPosition (accumMask a)).Crosses →
    v.advance (accumMask a) =
      some { v.stepPosition (accumMask a) with
        control := v.notedControl
        accumulator :=
          (if v.dir then v.endPos - (v.start - (v.stepPosition (accumMask a)).accumulator)
          else v.start + ((v.stepPosition (accumMask a)).accumulator - v.endPos)) &&& accumMask a }.envelope

/-- R148, R146: a crossing in trans-wave mode wraps the same way, clears `LOOP` and sets `LEI`. -/
def Obligations.TransWaveCrossingWrapsOnce : Prop :=
  ∀ (a : AccumWidth) (v : Voice), v.lei = false → v.loopMode = .transWave → (v.stepPosition (accumMask a)).Crosses →
    v.advance (accumMask a) =
      some { v.stepPosition (accumMask a) with
        control := (v.notedControl &&& 0xFFE7#16) ||| 0x0004#16
        accumulator :=
          (if v.dir then v.endPos - (v.start - (v.stepPosition (accumMask a)).accumulator)
          else v.start + ((v.stepPosition (accumMask a)).accumulator - v.endPos)) &&& accumMask a }.envelope

/-- R149 corner (a), (b), R146: a crossing in bow-tie mode by at most `end - start` reflects once, flips `DIR` and changes nothing
else before the envelope. -/
def Obligations.BowTieCrossingReflects : Prop :=
  ∀ (a : AccumWidth) (v : Voice), v.lei = false → v.loopMode = .bowTie → v.Within (accumMask a) →
    v.start.toNat < v.endPos.toNat → (v.stepPosition (accumMask a)).Crosses →
    (v.stepPosition (accumMask a)).overshoot ≤ v.endPos.toNat - v.start.toNat →
    ∃ p : Word,
      v.advance (accumMask a) =
        some { v.stepPosition (accumMask a) with control := v.notedControl ^^^ 0x0040#16, accumulator := p }.envelope ∧
      (v.dir = false → v.endPos.toNat - p.toNat = (v.stepPosition (accumMask a)).accumulator.toNat - v.endPos.toNat ∧
        p.toNat < v.endPos.toNat) ∧
      (v.dir = true → p.toNat - v.start.toNat = v.start.toNat - (v.stepPosition (accumMask a)).accumulator.toNat ∧
        v.start.toNat < p.toNat)

/-- R156 item 1: a forward uni-directional voice whose pitch is at most the loop stays between its bounds for ever and keeps its
phase exactly: no drift over any number of FRAMEs. -/
def Obligations.UniLoopNeverDrifts : Prop :=
  ∀ (a : AccumWidth) (v : Voice) (n : Nat), v.lei = false → v.dir = false → v.loopMode = .uni →
    v.start.toNat < v.endPos.toNat → v.freqcount.toNat ≤ v.endPos.toNat - v.start.toNat →
    v.start.toNat ≤ v.accumulator.toNat → v.accumulator.toNat ≤ v.endPos.toNat →
    v.endPos.toNat + v.freqcount.toNat ≤ (accumMask a).toNat →
    ∃ w, v.advances (accumMask a) n = some w ∧ v.start.toNat ≤ w.accumulator.toNat ∧
      w.accumulator.toNat ≤ v.endPos.toNat ∧
      (w.accumulator.toNat - v.start.toNat) % (v.endPos.toNat - v.start.toNat) =
        (v.accumulator.toNat - v.start.toNat + n * v.freqcount.toNat) % (v.endPos.toNat - v.start.toNat)

/-- R156 item 2: from `end - 1`, forward, a bow-tie step of 2 to `end - start + 1` comes back by exactly what it went over. -/
def Obligations.BowTieIsSymmetric : Prop :=
  ∀ (a : AccumWidth) (v : Voice), v.lei = false → v.dir = false → v.loopMode = .bowTie →
    v.start.toNat < v.endPos.toNat → v.accumulator.toNat = v.endPos.toNat - 1 → 1 < v.freqcount.toNat →
    v.freqcount.toNat ≤ v.endPos.toNat - v.start.toNat + 1 →
    v.endPos.toNat - 1 + v.freqcount.toNat ≤ (accumMask a).toNat →
    ∃ w, v.advance (accumMask a) = some w ∧ w.dir = true ∧
      w.endPos.toNat - w.accumulator.toNat = (v.endPos.toNat - 1 + v.freqcount.toNat) - v.endPos.toNat ∧
      w.accumulator.toNat < w.endPos.toNat

/-- R149, R150: a bow-tie voice inside its bounds, whose step leaves the position space in neither direction, stays inside them for
ever however large its pitch is, and keeps its phase in the round of `2 * (end - start)` exactly. -/
def Obligations.BowTieNeverDrifts : Prop :=
  ∀ (a : AccumWidth) (v : Voice) (n : Nat), v.lei = false → v.loopMode = .bowTie →
    v.start.toNat < v.endPos.toNat → v.start.toNat ≤ v.accumulator.toNat → v.accumulator.toNat ≤ v.endPos.toNat →
    v.freqcount.toNat ≤ v.start.toNat → v.endPos.toNat + v.freqcount.toNat ≤ (accumMask a).toNat →
    ∃ w, v.advances (accumMask a) n = some w ∧ v.start.toNat ≤ w.accumulator.toNat ∧
      w.accumulator.toNat ≤ v.endPos.toNat ∧ w.start = v.start ∧ w.endPos = v.endPos ∧
      w.phase % (2 * (v.endPos.toNat - v.start.toNat) : Int) =
        (v.phase + n * v.freqcount.toNat) % (2 * (v.endPos.toNat - v.start.toNat) : Int)

/-- R151: a count of `n` gives exactly one tick, at the `n`-th run of the envelope; the counter then stays at 0. -/
def Obligations.EnvelopeTicksOnce : Prop :=
  ∀ (v : Voice) (k : Nat),
    (k < v.envelopeCount.toNat →
      Voice.envelope^[k] v = { v with envelopeCount := v.envelopeCount - BitVec.ofNat 16 k }) ∧
    (0 < v.envelopeCount.toNat → v.envelopeCount.toNat ≤ k → Voice.envelope^[k] v = { v.tick with envelopeCount := 0 }) ∧
    (v.envelopeCount = 0#16 → Voice.envelope^[k] v = v)

/-- R153: a tick adds each signed ramp byte to its volume over the integers and clamps to 0..65535; a ramp of 0 writes nothing. -/
def Obligations.VolumeRampsClamp : Prop :=
  ∀ v : Voice,
    (v.volumeRamps.leftVolume.toNat : Int) = max 0 (min 65535 ((v.leftVolume.toNat : Int) + v.leftRamp.toInt)) ∧
    (v.volumeRamps.rightVolume.toNat : Int) = max 0 (min 65535 ((v.rightVolume.toNat : Int) + v.rightRamp.toInt)) ∧
    v.volumeRamps = { v with leftVolume := v.volumeRamps.leftVolume, rightVolume := v.volumeRamps.rightVolume } ∧
    (v.leftRamp = 0#8 → v.volumeRamps.leftVolume = v.leftVolume) ∧
    (v.rightRamp = 0#8 → v.volumeRamps.rightVolume = v.rightVolume)

/-- R154: of eight successive ticks exactly one moves the coefficients, whatever `filtcount` is at the start, and `filtcount` comes
round; a tick moves them when `filtcount` is 0 and only then. -/
def Obligations.CoefficientsRampAtOneEighth : Prop :=
  ∀ v : Voice,
    (v.filtcount = 0#3 →
      (v.tick.k1.toNat : Int) = max 0 (min 65535 ((v.k1.toNat : Int) + v.k1Ramp.toInt)) ∧
      (v.tick.k2.toNat : Int) = max 0 (min 65535 ((v.k2.toNat : Int) + v.k2Ramp.toInt))) ∧
    (v.filtcount ≠ 0#3 → v.tick.k1 = v.k1 ∧ v.tick.k2 = v.k2) ∧
    v.tick.filtcount.toNat = (v.filtcount.toNat + 1) % 8 ∧
    ((Voice.tick^[8] v).k1.toNat : Int) = max 0 (min 65535 ((v.k1.toNat : Int) + v.k1Ramp.toInt)) ∧
    ((Voice.tick^[8] v).k2.toNat : Int) = max 0 (min 65535 ((v.k2.toNat : Int) + v.k2Ramp.toInt)) ∧
    (Voice.tick^[8] v).filtcount = v.filtcount

/-! ### Sample memory, fetch and interpolation (spec/20_memory.md, spec/42_fetch_decode_interp.md) -/

/-- R44, R45: a read inside a region gives its byte, or its two bytes as a signed number in the region's byte order, and draws
nothing; a read outside draws one free value and nothing is said of it (the count of draws is the model's, log entry 6). -/
def Obligations.RegionReads : Prop :=
  ∀ (r : Region) (i d : Nat),
    (i < r.len → r.read8 i d = (r.byteAt i, d)) ∧ (r.len ≤ i → (r.read8 i d).2 = d + 1) ∧
    (2 * i + 1 < r.len → (r.read16 false i d).1.toInt =
        ((r.byteAt (2 * i + 1)).toNat * 256 + (r.byteAt (2 * i)).toNat : Int).bmod 65536 ∧
      (r.read16 true i d).1.toInt =
        ((r.byteAt (2 * i)).toNat * 256 + (r.byteAt (2 * i + 1)).toNat : Int).bmod 65536 ∧
      (r.read16 false i d).2 = d ∧ (r.read16 true i d).2 = d) ∧
    (r.len ≤ 2 * i + 1 → (r.read16 false i d).2 = d + 1 ∧ (r.read16 true i d).2 = d + 1)

/-- R41, R53: a byte the platform stores in a mapped region is what that index reads as from then on, every other index of every
region reads as before, and the regions keep their canonical form, which is the model's (log entry 5). -/
def Obligations.PlatformStoreIsReadBack : Prop :=
  ∀ (s : State) (r : BitVec 2) (i : Nat) (b : Byte) (x : Region), Memory.wf s.memory = true →
    Memory.region s.memory r = some x → i < x.len →
    Memory.wf (s.platformWrite r i b).memory = true ∧
    (∃ y, Memory.region (s.platformWrite r i b).memory r = some y ∧ y.len = x.len ∧
      ∀ j, y.byteAt j = if j = i then b else x.byteAt j) ∧
    (∀ q, q ≠ r → Memory.region (s.platformWrite r i b).memory q = Memory.region s.memory q) ∧
    (s.platformWrite r i b).chip = s.chip

/-- R42, R43, R170, R173, R174: a fetch takes the samples at the position and one sample on, at
`(pos + 0x800) & ACCUM_MASK`, from the region `BS` names, in the format `CMPD` names, when both indexes are inside the region. -/
def Obligations.FetchTakesTwoNeighbours : Prop :=
  ∀ (p : Params) (mem : Memory) (v : Voice) (pos : Word) (d : Nat) (r : Region), Memory.region mem v.bs = some r →
    (v.cmpd = false →
      2 * (v.exbank.toNat + pos.toNat / 2048) + 1 < r.len →
      2 * (v.exbank.toNat + ((pos + 0x800#32) &&& posMask p).toNat / 2048) + 1 < r.len →
      fetch p mem v pos d =
        some ⟨(r.read16 p.bigEndian (v.exbank.toNat + pos.toNat / 2048) d).1,
          (r.read16 p.bigEndian (v.exbank.toNat + ((pos + 0x800#32) &&& posMask p).toNat / 2048) d).1, d⟩) ∧
    (v.cmpd = true →
      v.exbank.toNat + pos.toNat / 2048 < r.len →
      v.exbank.toNat + ((pos + 0x800#32) &&& posMask p).toNat / 2048 < r.len →
      fetch p mem v pos d =
        some ⟨ulawEntry p.ulaw (r.byteAt (v.exbank.toNat + pos.toNat / 2048)),
          ulawEntry p.ulaw (r.byteAt (v.exbank.toNat + ((pos + 0x800#32) &&& posMask p).toNat / 2048)), d⟩)

/-- R176, R177: the default u-law table is the G.711 expansion: the two entries the document fixes, odd in the sign bit, and rising in
magnitude as the complemented byte does. -/
def Obligations.DefaultUlawTable : Prop :=
  (g711 0x00#8).toInt = -32124 ∧ (g711 0xFF#8).toInt = 0 ∧
  (∀ b : Byte, (g711 (b ^^^ 0x80#8)).toInt = -(g711 b).toInt) ∧
  (∀ b : Byte, 0x80#8 < b → (g711 b).toInt < (g711 (b - 1#8)).toInt)

/-- R178, the rounding being the spec's own choice: the interpolated value is between the two samples, is the first
one at a zero fraction, and equals the rule's second form. -/
def Obligations.InterpolationIsBetween : Prop :=
  ∀ (s1 s2 : Sample) (p : Word),
    min s1.toInt s2.toInt ≤ interp s1 s2 p ∧ interp s1 s2 p ≤ max s1.toInt s2.toInt ∧
    interp s1 s2 p = s1.toInt + ((s2.toInt - s1.toInt) * ((p.toNat % 2048 : Nat) : Int)) / 2048 ∧
    (p.toNat % 2048 = 0 → interp s1 s2 p = s1.toInt)

/-! ### The filter (spec/43_filter.md) -/

/-- R190, R192, R195, R197, R198: the four outputs by the value of `LP`, from the taps as they stood; when they fit, they become the taps,
`y4` is the sample, and nothing else of the voice changes. -/
def Obligations.FilterPolesByMode : Prop :=
  ∀ (k : KShift) (v : Voice) (x y1 y2 y3 y4 c1 c2 : Int) (d : Nat),
    c1 = v.k1.toNat / 2 ^ kShiftBits k → c2 = v.k2.toNat / 2 ^ kShiftBits k →
    y1 = c1 * (x - v.o1.toInt) / 16384 + v.o1.toInt → y2 = c1 * (y1 - v.o2.toInt) / 16384 + v.o2.toInt →
    (v.lp = 0#2 → y3 = y2 - v.o2.toInt + c2 * v.o3.toInt / 32768 + v.o3.toInt / 2 ∧
      y4 = y3 - v.o3.toInt + c2 * v.o4.toInt / 32768 + v.o4.toInt / 2) →
    (v.lp = 1#2 → y3 = c1 * (y2 - v.o3.toInt) / 16384 + v.o3.toInt ∧
      y4 = y3 - v.o3.toInt + c2 * v.o4.toInt / 32768 + v.o4.toInt / 2) →
    (v.lp = 2#2 → y3 = c2 * (y2 - v.o3.toInt) / 16384 + v.o3.toInt ∧
      y4 = c2 * (y3 - v.o4.toInt) / 16384 + v.o4.toInt) →
    (v.lp = 3#2 → y3 = c1 * (y2 - v.o3.toInt) / 16384 + v.o3.toInt ∧
      y4 = c2 * (y3 - v.o4.toInt) / 16384 + v.o4.toInt) →
    (∀ y ∈ [y1, y2, y3, y4], -2 ^ 31 ≤ y ∧ y < 2 ^ 31) →
    (v.filtered k x d).sample = y4 ∧ (v.filtered k x d).draws = d ∧
      (v.filtered k x d).voice =
        { v with o1 := BitVec.ofInt 32 y1, o2 := BitVec.ofInt 32 y2, o3 := BitVec.ofInt 32 y3, o4 := BitVec.ofInt 32 y4 }

/-- R196: the corner cases of a low-pass pole: `c` 0 holds the tap, `c` 16384 is transparent, equal input and tap stay, between them
the pole stays between input and tap, and at 16383 it falls short by the difference over 16384. -/
def Obligations.LowPassCornerCases : Prop :=
  ∀ c x z : Int,
    lowPass 0 x z = z ∧ lowPass 16384 x z = x ∧ lowPass c x x = x ∧
    (0 ≤ c → c ≤ 16384 → min x z ≤ lowPass c x z ∧ lowPass c x z ≤ max x z) ∧
    lowPass 16383 x z = x + (z - x) / 16384

/-- R196, R200: the corner cases of a high-pass pole: `c` 0 is a differentiator with a feedback of one half, and `c` 16384 a feedback
of exactly 1. -/
def Obligations.HighPassCornerCases : Prop :=
  ∀ x zin zown : Int,
    highPass 0 x zin zown = x - zin + zown / 2 ∧
    highPass 16384 x zin zown = x - zin + zown - zown % 2 ∧
    highPass 16384 x zown zown = x - zown % 2

/-- R199: with `K_SHIFT = 2`, mode 2 or 3, and input and taps within 16 bits, the filter never overflows: nothing is drawn, and the
sample and the new taps are within 16 bits. -/
def Obligations.LowPassModesStaySmall : Prop :=
  ∀ (v : Voice) (x : Int) (d : Nat), v.AllLowPass → v.SmallTaps → Fits16 x →
    Fits16 (v.filtered .two x d).sample ∧ (v.filtered .two x d).voice.SmallTaps ∧ (v.filtered .two x d).draws = d

/-- R200: the transparent filter: `K_SHIFT = 0`, mode 2 or 3, both coefficients `0x4000`: output and taps equal the input. -/
def Obligations.TransparentFilter : Prop :=
  ∀ (v : Voice) (x : Int) (d : Nat), v.AllLowPass → v.k1 = 0x4000#16 → v.k2 = 0x4000#16 → Fits16 x →
    (v.filtered .none x d).sample = x ∧ (v.filtered .none x d).draws = d ∧
      (v.filtered .none x d).voice =
        { v with o1 := BitVec.ofInt 32 x, o2 := BitVec.ofInt 32 x, o3 := BitVec.ofInt 32 x, o4 := BitVec.ofInt 32 x }

/-! ### The completion interrupt (spec/60_exceptions.md) -/

/-- R233, R234: the scan of voices 0 to `n - 1` latches the lowest one whose flag waits, if the latch is Idle; it clears that voice's
flag, raises the line, and changes nothing else; otherwise it changes nothing. -/
def Obligations.ScanLatchesTheLowestVoice : Prop :=
  ∀ (c : Chip) (n : Nat), n ≤ 32 →
    (∀ i : VoiceIx, c.idle = true → i.toNat < n → (c.voice i).irq = true →
      (∀ j : VoiceIx, j.toNat < i.toNat → (c.voice j).irq = false) →
      (c.scanBelow n).irqVector.toNat = i.toNat ∧ (c.scanBelow n).irqLine = true ∧
      (c.scanBelow n).voice i = { c.voice i with control := (c.voice i).control &&& 0xFF7F#16 } ∧
      (∀ j : VoiceIx, j ≠ i → (c.scanBelow n).voice j = c.voice j) ∧
      (c.scanBelow n).activeVoices = c.activeVoices ∧ (c.scanBelow n).currentPage = c.currentPage ∧
      (c.scanBelow n).mode = c.mode) ∧
    (c.idle = false ∨ (∀ i : VoiceIx, i.toNat < n → (c.voice i).irq = false) → c.scanBelow n = c)

/-- R234: a waiting completion is never lost in a FRAME: the flag still waits after it, or the vector holds the voice and the line is
high. -/
def Obligations.CompletionIsNeverLost : Prop :=
  ∀ (s t : State) (i : VoiceIx), exec .frame s = .next t → (s.voice i).irq = true →
    (t.voice i).irq = true ∨ (t.chip.irqVector.toNat = i.toNat ∧ t.chip.irqLine = true)

/-- R235, R236: a Pending latch keeps its vector and its line through every step but a read of the vector and a `RESET`; the line rises
only at the end of a FRAME. -/
def Obligations.LatchChangesOnlyWhereAllowed : Prop :=
  ∀ (s t : State) (e : Event) (rest : List Event), s.input = e :: rest → step s = .next t →
    (s.chip.idle = false → e ≠ .rd 14#4 → e ≠ .reset →
      t.chip.irqVector = s.chip.irqVector ∧ t.chip.irqLine = s.chip.irqLine) ∧
    (s.chip.irqLine = false → t.chip.irqLine = true → e = .frame) ∧
    (s.chip.irqLine = true → t.chip.irqLine = false → e = .rd 14#4 ∨ e = .reset)

/-- R239: the interrupt machinery has no effect on the audio: from two states that differ only in the `IRQ` flags, the vector and
the line, any number of FRAMEs put out the same; and an acknowledge makes only such a difference. Where the FRAMEs draw free values, both
runs draw them at the same counts, and that the same count gives the same value is the model's choice (log entry 6). -/
def Obligations.AudioIgnoresInterrupts : Prop :=
  (∀ (n : Nat) (s t : State), s.SameButInterrupts t → (s.render n).map Prod.snd = (t.render n).map Prod.snd) ∧
  (∀ (s : State) (p : Page), ∃ t, exec (.rdIrqv p) s = .next t ∧ s.SameButInterrupts t)
end

