-- ==== Sys2Proof/Laws/State.lean ====
section
/-! SUPPORT. One lemma for each field of each named update, true by rfl, so that no proof unfolds a record update. -/

namespace Sys2Proof.Machine

/-! ### Writers of `control`: every other register stays -/

@[simp] theorem Voice.setStop0_start (v : Voice) : v.setStop0.start = v.start := rfl
@[simp] theorem Voice.setStop0_endPos (v : Voice) : v.setStop0.endPos = v.endPos := rfl
@[simp] theorem Voice.setStop0_accumulator (v : Voice) : v.setStop0.accumulator = v.accumulator := rfl
@[simp] theorem Voice.setStop0_freqcount (v : Voice) : v.setStop0.freqcount = v.freqcount := rfl
@[simp] theorem Voice.setStop0_leftVolume (v : Voice) : v.setStop0.leftVolume = v.leftVolume := rfl
@[simp] theorem Voice.setStop0_leftRamp (v : Voice) : v.setStop0.leftRamp = v.leftRamp := rfl
@[simp] theorem Voice.setStop0_rightVolume (v : Voice) : v.setStop0.rightVolume = v.rightVolume := rfl
@[simp] theorem Voice.setStop0_rightRamp (v : Voice) : v.setStop0.rightRamp = v.rightRamp := rfl
@[simp] theorem Voice.setStop0_envelopeCount (v : Voice) : v.setStop0.envelopeCount = v.envelopeCount := rfl
@[simp] theorem Voice.setStop0_k1 (v : Voice) : v.setStop0.k1 = v.k1 := rfl
@[simp] theorem Voice.setStop0_k1Ramp (v : Voice) : v.setStop0.k1Ramp = v.k1Ramp := rfl
@[simp] theorem Voice.setStop0_k2 (v : Voice) : v.setStop0.k2 = v.k2 := rfl
@[simp] theorem Voice.setStop0_k2Ramp (v : Voice) : v.setStop0.k2Ramp = v.k2Ramp := rfl
@[simp] theorem Voice.setStop0_o1 (v : Voice) : v.setStop0.o1 = v.o1 := rfl
@[simp] theorem Voice.setStop0_o2 (v : Voice) : v.setStop0.o2 = v.o2 := rfl
@[simp] theorem Voice.setStop0_o3 (v : Voice) : v.setStop0.o3 = v.o3 := rfl
@[simp] theorem Voice.setStop0_o4 (v : Voice) : v.setStop0.o4 = v.o4 := rfl
@[simp] theorem Voice.setStop0_exbank (v : Voice) : v.setStop0.exbank = v.exbank := rfl
@[simp] theorem Voice.setStop0_filtcount (v : Voice) : v.setStop0.filtcount = v.filtcount := rfl

@[simp] theorem Voice.setIrq_start (v : Voice) (b : Bool) : (v.setIrq b).start = v.start := rfl
@[simp] theorem Voice.setIrq_endPos (v : Voice) (b : Bool) : (v.setIrq b).endPos = v.endPos := rfl
@[simp] theorem Voice.setIrq_accumulator (v : Voice) (b : Bool) : (v.setIrq b).accumulator = v.accumulator := rfl
@[simp] theorem Voice.setIrq_freqcount (v : Voice) (b : Bool) : (v.setIrq b).freqcount = v.freqcount := rfl
@[simp] theorem Voice.setIrq_leftVolume (v : Voice) (b : Bool) : (v.setIrq b).leftVolume = v.leftVolume := rfl
@[simp] theorem Voice.setIrq_leftRamp (v : Voice) (b : Bool) : (v.setIrq b).leftRamp = v.leftRamp := rfl
@[simp] theorem Voice.setIrq_rightVolume (v : Voice) (b : Bool) : (v.setIrq b).rightVolume = v.rightVolume := rfl
@[simp] theorem Voice.setIrq_rightRamp (v : Voice) (b : Bool) : (v.setIrq b).rightRamp = v.rightRamp := rfl
@[simp] theorem Voice.setIrq_envelopeCount (v : Voice) (b : Bool) : (v.setIrq b).envelopeCount = v.envelopeCount := rfl
@[simp] theorem Voice.setIrq_k1 (v : Voice) (b : Bool) : (v.setIrq b).k1 = v.k1 := rfl
@[simp] theorem Voice.setIrq_k1Ramp (v : Voice) (b : Bool) : (v.setIrq b).k1Ramp = v.k1Ramp := rfl
@[simp] theorem Voice.setIrq_k2 (v : Voice) (b : Bool) : (v.setIrq b).k2 = v.k2 := rfl
@[simp] theorem Voice.setIrq_k2Ramp (v : Voice) (b : Bool) : (v.setIrq b).k2Ramp = v.k2Ramp := rfl
@[simp] theorem Voice.setIrq_o1 (v : Voice) (b : Bool) : (v.setIrq b).o1 = v.o1 := rfl
@[simp] theorem Voice.setIrq_o2 (v : Voice) (b : Bool) : (v.setIrq b).o2 = v.o2 := rfl
@[simp] theorem Voice.setIrq_o3 (v : Voice) (b : Bool) : (v.setIrq b).o3 = v.o3 := rfl
@[simp] theorem Voice.setIrq_o4 (v : Voice) (b : Bool) : (v.setIrq b).o4 = v.o4 := rfl
@[simp] theorem Voice.setIrq_exbank (v : Voice) (b : Bool) : (v.setIrq b).exbank = v.exbank := rfl
@[simp] theorem Voice.setIrq_filtcount (v : Voice) (b : Bool) : (v.setIrq b).filtcount = v.filtcount := rfl

@[simp] theorem Voice.flipDir_start (v : Voice) : v.flipDir.start = v.start := rfl
@[simp] theorem Voice.flipDir_endPos (v : Voice) : v.flipDir.endPos = v.endPos := rfl
@[simp] theorem Voice.flipDir_accumulator (v : Voice) : v.flipDir.accumulator = v.accumulator := rfl
@[simp] theorem Voice.flipDir_freqcount (v : Voice) : v.flipDir.freqcount = v.freqcount := rfl
@[simp] theorem Voice.flipDir_leftVolume (v : Voice) : v.flipDir.leftVolume = v.leftVolume := rfl
@[simp] theorem Voice.flipDir_leftRamp (v : Voice) : v.flipDir.leftRamp = v.leftRamp := rfl
@[simp] theorem Voice.flipDir_rightVolume (v : Voice) : v.flipDir.rightVolume = v.rightVolume := rfl
@[simp] theorem Voice.flipDir_rightRamp (v : Voice) : v.flipDir.rightRamp = v.rightRamp := rfl
@[simp] theorem Voice.flipDir_envelopeCount (v : Voice) : v.flipDir.envelopeCount = v.envelopeCount := rfl
@[simp] theorem Voice.flipDir_k1 (v : Voice) : v.flipDir.k1 = v.k1 := rfl
@[simp] theorem Voice.flipDir_k1Ramp (v : Voice) : v.flipDir.k1Ramp = v.k1Ramp := rfl
@[simp] theorem Voice.flipDir_k2 (v : Voice) : v.flipDir.k2 = v.k2 := rfl
@[simp] theorem Voice.flipDir_k2Ramp (v : Voice) : v.flipDir.k2Ramp = v.k2Ramp := rfl
@[simp] theorem Voice.flipDir_o1 (v : Voice) : v.flipDir.o1 = v.o1 := rfl
@[simp] theorem Voice.flipDir_o2 (v : Voice) : v.flipDir.o2 = v.o2 := rfl
@[simp] theorem Voice.flipDir_o3 (v : Voice) : v.flipDir.o3 = v.o3 := rfl
@[simp] theorem Voice.flipDir_o4 (v : Voice) : v.flipDir.o4 = v.o4 := rfl
@[simp] theorem Voice.flipDir_exbank (v : Voice) : v.flipDir.exbank = v.exbank := rfl
@[simp] theorem Voice.flipDir_filtcount (v : Voice) : v.flipDir.filtcount = v.filtcount := rfl

@[simp] theorem Voice.endTransWave_start (v : Voice) : v.endTransWave.start = v.start := rfl
@[simp] theorem Voice.endTransWave_endPos (v : Voice) : v.endTransWave.endPos = v.endPos := rfl
@[simp] theorem Voice.endTransWave_accumulator (v : Voice) : v.endTransWave.accumulator = v.accumulator := rfl
@[simp] theorem Voice.endTransWave_freqcount (v : Voice) : v.endTransWave.freqcount = v.freqcount := rfl
@[simp] theorem Voice.endTransWave_leftVolume (v : Voice) : v.endTransWave.leftVolume = v.leftVolume := rfl
@[simp] theorem Voice.endTransWave_leftRamp (v : Voice) : v.endTransWave.leftRamp = v.leftRamp := rfl
@[simp] theorem Voice.endTransWave_rightVolume (v : Voice) : v.endTransWave.rightVolume = v.rightVolume := rfl
@[simp] theorem Voice.endTransWave_rightRamp (v : Voice) : v.endTransWave.rightRamp = v.rightRamp := rfl
@[simp] theorem Voice.endTransWave_envelopeCount (v : Voice) : v.endTransWave.envelopeCount = v.envelopeCount := rfl
@[simp] theorem Voice.endTransWave_k1 (v : Voice) : v.endTransWave.k1 = v.k1 := rfl
@[simp] theorem Voice.endTransWave_k1Ramp (v : Voice) : v.endTransWave.k1Ramp = v.k1Ramp := rfl
@[simp] theorem Voice.endTransWave_k2 (v : Voice) : v.endTransWave.k2 = v.k2 := rfl
@[simp] theorem Voice.endTransWave_k2Ramp (v : Voice) : v.endTransWave.k2Ramp = v.k2Ramp := rfl
@[simp] theorem Voice.endTransWave_o1 (v : Voice) : v.endTransWave.o1 = v.o1 := rfl
@[simp] theorem Voice.endTransWave_o2 (v : Voice) : v.endTransWave.o2 = v.o2 := rfl
@[simp] theorem Voice.endTransWave_o3 (v : Voice) : v.endTransWave.o3 = v.o3 := rfl
@[simp] theorem Voice.endTransWave_o4 (v : Voice) : v.endTransWave.o4 = v.o4 := rfl
@[simp] theorem Voice.endTransWave_exbank (v : Voice) : v.endTransWave.exbank = v.exbank := rfl
@[simp] theorem Voice.endTransWave_filtcount (v : Voice) : v.endTransWave.filtcount = v.filtcount := rfl

/-! ### The taps -/

@[simp] theorem Voice.setTaps_control (v : Voice) (w1 w2 w3 w4 : Word) : (v.setTaps w1 w2 w3 w4).control = v.control := rfl
@[simp] theorem Voice.setTaps_start (v : Voice) (w1 w2 w3 w4 : Word) : (v.setTaps w1 w2 w3 w4).start = v.start := rfl
@[simp] theorem Voice.setTaps_endPos (v : Voice) (w1 w2 w3 w4 : Word) : (v.setTaps w1 w2 w3 w4).endPos = v.endPos := rfl
@[simp] theorem Voice.setTaps_accumulator (v : Voice) (w1 w2 w3 w4 : Word) : (v.setTaps w1 w2 w3 w4).accumulator = v.accumulator := rfl
@[simp] theorem Voice.setTaps_freqcount (v : Voice) (w1 w2 w3 w4 : Word) : (v.setTaps w1 w2 w3 w4).freqcount = v.freqcount := rfl
@[simp] theorem Voice.setTaps_leftVolume (v : Voice) (w1 w2 w3 w4 : Word) : (v.setTaps w1 w2 w3 w4).leftVolume = v.leftVolume := rfl
@[simp] theorem Voice.setTaps_leftRamp (v : Voice) (w1 w2 w3 w4 : Word) : (v.setTaps w1 w2 w3 w4).leftRamp = v.leftRamp := rfl
@[simp] theorem Voice.setTaps_rightVolume (v : Voice) (w1 w2 w3 w4 : Word) : (v.setTaps w1 w2 w3 w4).rightVolume = v.rightVolume := rfl
@[simp] theorem Voice.setTaps_rightRamp (v : Voice) (w1 w2 w3 w4 : Word) : (v.setTaps w1 w2 w3 w4).rightRamp = v.rightRamp := rfl
@[simp] theorem Voice.setTaps_envelopeCount (v : Voice) (w1 w2 w3 w4 : Word) : (v.setTaps w1 w2 w3 w4).envelopeCount = v.envelopeCount := rfl
@[simp] theorem Voice.setTaps_k1 (v : Voice) (w1 w2 w3 w4 : Word) : (v.setTaps w1 w2 w3 w4).k1 = v.k1 := rfl
@[simp] theorem Voice.setTaps_k1Ramp (v : Voice) (w1 w2 w3 w4 : Word) : (v.setTaps w1 w2 w3 w4).k1Ramp = v.k1Ramp := rfl
@[simp] theorem Voice.setTaps_k2 (v : Voice) (w1 w2 w3 w4 : Word) : (v.setTaps w1 w2 w3 w4).k2 = v.k2 := rfl
@[simp] theorem Voice.setTaps_k2Ramp (v : Voice) (w1 w2 w3 w4 : Word) : (v.setTaps w1 w2 w3 w4).k2Ramp = v.k2Ramp := rfl
@[simp] theorem Voice.setTaps_o1 (v : Voice) (w1 w2 w3 w4 : Word) : (v.setTaps w1 w2 w3 w4).o1 = w1 := rfl
@[simp] theorem Voice.setTaps_o2 (v : Voice) (w1 w2 w3 w4 : Word) : (v.setTaps w1 w2 w3 w4).o2 = w2 := rfl
@[simp] theorem Voice.setTaps_o3 (v : Voice) (w1 w2 w3 w4 : Word) : (v.setTaps w1 w2 w3 w4).o3 = w3 := rfl
@[simp] theorem Voice.setTaps_o4 (v : Voice) (w1 w2 w3 w4 : Word) : (v.setTaps w1 w2 w3 w4).o4 = w4 := rfl
@[simp] theorem Voice.setTaps_exbank (v : Voice) (w1 w2 w3 w4 : Word) : (v.setTaps w1 w2 w3 w4).exbank = v.exbank := rfl
@[simp] theorem Voice.setTaps_filtcount (v : Voice) (w1 w2 w3 w4 : Word) : (v.setTaps w1 w2 w3 w4).filtcount = v.filtcount := rfl

/-! ### The volume ramps -/

@[simp] theorem Voice.volumeRamps_control (v : Voice) : v.volumeRamps.control = v.control := rfl
@[simp] theorem Voice.volumeRamps_start (v : Voice) : v.volumeRamps.start = v.start := rfl
@[simp] theorem Voice.volumeRamps_endPos (v : Voice) : v.volumeRamps.endPos = v.endPos := rfl
@[simp] theorem Voice.volumeRamps_accumulator (v : Voice) : v.volumeRamps.accumulator = v.accumulator := rfl
@[simp] theorem Voice.volumeRamps_freqcount (v : Voice) : v.volumeRamps.freqcount = v.freqcount := rfl
@[simp] theorem Voice.volumeRamps_leftVolume (v : Voice) : v.volumeRamps.leftVolume = rampValue v.leftVolume v.leftRamp := rfl
@[simp] theorem Voice.volumeRamps_leftRamp (v : Voice) : v.volumeRamps.leftRamp = v.leftRamp := rfl
@[simp] theorem Voice.volumeRamps_rightVolume (v : Voice) : v.volumeRamps.rightVolume = rampValue v.rightVolume v.rightRamp := rfl
@[simp] theorem Voice.volumeRamps_rightRamp (v : Voice) : v.volumeRamps.rightRamp = v.rightRamp := rfl
@[simp] theorem Voice.volumeRamps_envelopeCount (v : Voice) : v.volumeRamps.envelopeCount = v.envelopeCount := rfl
@[simp] theorem Voice.volumeRamps_k1 (v : Voice) : v.volumeRamps.k1 = v.k1 := rfl
@[simp] theorem Voice.volumeRamps_k1Ramp (v : Voice) : v.volumeRamps.k1Ramp = v.k1Ramp := rfl
@[simp] theorem Voice.volumeRamps_k2 (v : Voice) : v.volumeRamps.k2 = v.k2 := rfl
@[simp] theorem Voice.volumeRamps_k2Ramp (v : Voice) : v.volumeRamps.k2Ramp = v.k2Ramp := rfl
@[simp] theorem Voice.volumeRamps_o1 (v : Voice) : v.volumeRamps.o1 = v.o1 := rfl
@[simp] theorem Voice.volumeRamps_o2 (v : Voice) : v.volumeRamps.o2 = v.o2 := rfl
@[simp] theorem Voice.volumeRamps_o3 (v : Voice) : v.volumeRamps.o3 = v.o3 := rfl
@[simp] theorem Voice.volumeRamps_o4 (v : Voice) : v.volumeRamps.o4 = v.o4 := rfl
@[simp] theorem Voice.volumeRamps_exbank (v : Voice) : v.volumeRamps.exbank = v.exbank := rfl
@[simp] theorem Voice.volumeRamps_filtcount (v : Voice) : v.volumeRamps.filtcount = v.filtcount := rfl

/-! ### The block -/

@[simp] theorem Chip.setVoice_activeVoices (c : Chip) (i : VoiceIx) (v : Voice) : (c.setVoice i v).activeVoices = c.activeVoices := rfl
@[simp] theorem Chip.setVoice_currentPage (c : Chip) (i : VoiceIx) (v : Voice) : (c.setVoice i v).currentPage = c.currentPage := rfl
@[simp] theorem Chip.setVoice_mode (c : Chip) (i : VoiceIx) (v : Voice) : (c.setVoice i v).mode = c.mode := rfl
@[simp] theorem Chip.setVoice_irqVector (c : Chip) (i : VoiceIx) (v : Voice) : (c.setVoice i v).irqVector = c.irqVector := rfl
@[simp] theorem Chip.setVoice_irqLine (c : Chip) (i : VoiceIx) (v : Voice) : (c.setVoice i v).irqLine = c.irqLine := rfl
@[simp] theorem Chip.latch_activeVoices (c : Chip) (i : VoiceIx) : (c.latch i).activeVoices = c.activeVoices := rfl
@[simp] theorem Chip.latch_currentPage (c : Chip) (i : VoiceIx) : (c.latch i).currentPage = c.currentPage := rfl
@[simp] theorem Chip.latch_mode (c : Chip) (i : VoiceIx) : (c.latch i).mode = c.mode := rfl
@[simp] theorem Chip.latch_irqVector (c : Chip) (i : VoiceIx) : (c.latch i).irqVector = i.setWidth 8 := rfl
@[simp] theorem Chip.latch_irqLine (c : Chip) (i : VoiceIx) : (c.latch i).irqLine = true := rfl
@[simp] theorem Chip.acknowledge_voices (c : Chip) : c.acknowledge.voices = c.voices := rfl
@[simp] theorem Chip.acknowledge_activeVoices (c : Chip) : c.acknowledge.activeVoices = c.activeVoices := rfl
@[simp] theorem Chip.acknowledge_currentPage (c : Chip) : c.acknowledge.currentPage = c.currentPage := rfl
@[simp] theorem Chip.acknowledge_mode (c : Chip) : c.acknowledge.mode = c.mode := rfl
@[simp] theorem Chip.acknowledge_irqVector (c : Chip) : c.acknowledge.irqVector = idleVector := rfl
@[simp] theorem Chip.acknowledge_irqLine (c : Chip) : c.acknowledge.irqLine = false := rfl

/-! ### The machine -/

@[simp] theorem State.writeVoice_chip (s : State) (i : VoiceIx) (v : Voice) : (s.writeVoice i v).chip = s.chip.setVoice i v := rfl
@[simp] theorem State.writeVoice_memory (s : State) (i : VoiceIx) (v : Voice) : (s.writeVoice i v).memory = s.memory := rfl
@[simp] theorem State.writeVoice_params (s : State) (i : VoiceIx) (v : Voice) : (s.writeVoice i v).params = s.params := rfl
@[simp] theorem State.writeVoice_input (s : State) (i : VoiceIx) (v : Voice) : (s.writeVoice i v).input = s.input := rfl
@[simp] theorem State.writeVoice_output (s : State) (i : VoiceIx) (v : Voice) : (s.writeVoice i v).output = .nothing := rfl
@[simp] theorem State.writeVoice_draws (s : State) (i : VoiceIx) (v : Voice) : (s.writeVoice i v).draws = s.draws := rfl

@[simp] theorem State.writeChip_chip (s : State) (c : Chip) : (s.writeChip c).chip = c := rfl
@[simp] theorem State.writeChip_memory (s : State) (c : Chip) : (s.writeChip c).memory = s.memory := rfl
@[simp] theorem State.writeChip_params (s : State) (c : Chip) : (s.writeChip c).params = s.params := rfl
@[simp] theorem State.writeChip_input (s : State) (c : Chip) : (s.writeChip c).input = s.input := rfl
@[simp] theorem State.writeChip_output (s : State) (c : Chip) : (s.writeChip c).output = .nothing := rfl
@[simp] theorem State.writeChip_draws (s : State) (c : Chip) : (s.writeChip c).draws = s.draws := rfl

@[simp] theorem State.ignoreWrite_chip (s : State) : (s.ignoreWrite).chip = s.chip := rfl
@[simp] theorem State.ignoreWrite_memory (s : State) : (s.ignoreWrite).memory = s.memory := rfl
@[simp] theorem State.ignoreWrite_params (s : State) : (s.ignoreWrite).params = s.params := rfl
@[simp] theorem State.ignoreWrite_input (s : State) : (s.ignoreWrite).input = s.input := rfl
@[simp] theorem State.ignoreWrite_output (s : State) : (s.ignoreWrite).output = .nothing := rfl
@[simp] theorem State.ignoreWrite_draws (s : State) : (s.ignoreWrite).draws = s.draws := rfl

@[simp] theorem State.answer_chip (s : State) (value : Word) : (s.answer value).chip = s.chip := rfl
@[simp] theorem State.answer_memory (s : State) (value : Word) : (s.answer value).memory = s.memory := rfl
@[simp] theorem State.answer_params (s : State) (value : Word) : (s.answer value).params = s.params := rfl
@[simp] theorem State.answer_input (s : State) (value : Word) : (s.answer value).input = s.input := rfl
@[simp] theorem State.answer_output (s : State) (value : Word) : (s.answer value).output = .data value := rfl
@[simp] theorem State.answer_draws (s : State) (value : Word) : (s.answer value).draws = s.draws := rfl

@[simp] theorem State.finishFrame_chip (s : State) (x : Mix) : (s.finishFrame x).chip = x.chip.scanBelow s.chip.servicedCount := rfl
@[simp] theorem State.finishFrame_memory (s : State) (x : Mix) : (s.finishFrame x).memory = s.memory := rfl
@[simp] theorem State.finishFrame_params (s : State) (x : Mix) : (s.finishFrame x).params = s.params := rfl
@[simp] theorem State.finishFrame_input (s : State) (x : Mix) : (s.finishFrame x).input = s.input := rfl
@[simp] theorem State.finishFrame_output (s : State) (x : Mix) : (s.finishFrame x).output = .audio x.left x.right := rfl
@[simp] theorem State.finishFrame_draws (s : State) (x : Mix) : (s.finishFrame x).draws = x.draws := rfl

@[simp] theorem State.platformMap_chip (s : State) (r : BitVec 2) (x : Option Region) : (s.platformMap r x).chip = s.chip := rfl
@[simp] theorem State.platformMap_memory (s : State) (r : BitVec 2) (x : Option Region) : (s.platformMap r x).memory = Memory.setRegion s.memory r x := rfl
@[simp] theorem State.platformMap_params (s : State) (r : BitVec 2) (x : Option Region) : (s.platformMap r x).params = s.params := rfl
@[simp] theorem State.platformMap_input (s : State) (r : BitVec 2) (x : Option Region) : (s.platformMap r x).input = s.input := rfl
@[simp] theorem State.platformMap_output (s : State) (r : BitVec 2) (x : Option Region) : (s.platformMap r x).output = s.output := rfl
@[simp] theorem State.platformMap_draws (s : State) (r : BitVec 2) (x : Option Region) : (s.platformMap r x).draws = s.draws := rfl

@[simp] theorem State.platformWrite_chip (s : State) (r : BitVec 2) (i : Nat) (b : Byte) : (s.platformWrite r i b).chip = s.chip := rfl
@[simp] theorem State.platformWrite_memory (s : State) (r : BitVec 2) (i : Nat) (b : Byte) : (s.platformWrite r i b).memory = Memory.setRegion s.memory r ((Memory.region s.memory r).map (Region.write · i b)) := rfl
@[simp] theorem State.platformWrite_params (s : State) (r : BitVec 2) (i : Nat) (b : Byte) : (s.platformWrite r i b).params = s.params := rfl
@[simp] theorem State.platformWrite_input (s : State) (r : BitVec 2) (i : Nat) (b : Byte) : (s.platformWrite r i b).input = s.input := rfl
@[simp] theorem State.platformWrite_output (s : State) (r : BitVec 2) (i : Nat) (b : Byte) : (s.platformWrite r i b).output = s.output := rfl
@[simp] theorem State.platformWrite_draws (s : State) (r : BitVec 2) (i : Nat) (b : Byte) : (s.platformWrite r i b).draws = s.draws := rfl

@[simp] theorem State.startMix_chip (s : State) : s.startMix.chip = s.chip := rfl
@[simp] theorem State.startMix_left (s : State) : s.startMix.left = 0 := rfl
@[simp] theorem State.startMix_right (s : State) : s.startMix.right = 0 := rfl
@[simp] theorem State.startMix_draws (s : State) : s.startMix.draws = s.draws := rfl

end Sys2Proof.Machine
end

