-- ==== Sys2Proof/Laws/Flags.lean ====
section
/-! SUPPORT. What each writer of `control` does to each field of it (spec/10_state.md R14 to R22). -/

namespace Sys2Proof.Machine

theorem getLsbD_setBit (c : Half) (k : Nat) (b : Bool) (j : Nat) (hk : k < 16) :
    (setBit c k b).getLsbD j = if j = k then b else c.getLsbD j := by
  by_cases h : j = k
  · subst h
    cases b <;> simp [setBit, hk]
  · by_cases hj : j < 16
    · cases b <;> simp [setBit, h, hj]
    · simp [h, BitVec.getLsbD_of_ge, Nat.le_of_not_lt hj]

/-- A two-bit field of `control` is fixed by its two bits. -/
theorem extract_two_congr {c d : Half} {n : Nat} (h0 : c.getLsbD n = d.getLsbD n)
    (h1 : c.getLsbD (n + 1) = d.getLsbD (n + 1)) : c.extractLsb' n 2 = d.extractLsb' n 2 := by
  apply BitVec.eq_of_getLsbD_eq
  intro i hi
  interval_cases i <;> simp [h0, h1]

/-- The four loop modes by the two bits of `LOOP` (R18). -/
theorem Voice.loopMode_eq (v : Voice) :
    v.loopMode = match v.control.getLsbD 4, v.control.getLsbD 3 with
      | false, false => .oneShot
      | false, true => .uni
      | true, false => .transWave
      | true, true => .bowTie := by
  have two : ∀ x : BitVec 2, x.toNat = (x.getLsbD 0).toNat + 2 * (x.getLsbD 1).toNat := by decide
  have h0 : v.loop.getLsbD 0 = v.control.getLsbD 3 := by simp [Voice.loop]
  have h1 : v.loop.getLsbD 1 = v.control.getLsbD 4 := by simp [Voice.loop]
  unfold Voice.loopMode
  rw [two, h0, h1]
  cases v.control.getLsbD 4 <;> cases v.control.getLsbD 3 <;> rfl

/-- The fields of `control` that no rule of the FRAME writes. -/
theorem Voice.poleMode_congr {v w : Voice} (h8 : v.control.getLsbD 8 = w.control.getLsbD 8)
    (h9 : v.control.getLsbD 9 = w.control.getLsbD 9) : v.poleMode = w.poleMode := by
  simp [Voice.poleMode, Voice.lp, extract_two_congr h8 h9]

theorem Voice.loopMode_congr {v w : Voice} (h3 : v.control.getLsbD 3 = w.control.getLsbD 3)
    (h4 : v.control.getLsbD 4 = w.control.getLsbD 4) : v.loopMode = w.loopMode := by
  rw [Voice.loopMode_eq, Voice.loopMode_eq, h3, h4]

theorem Voice.bs_congr {v w : Voice} (h14 : v.control.getLsbD 14 = w.control.getLsbD 14)
    (h15 : v.control.getLsbD 15 = w.control.getLsbD 15) : v.bs = w.bs := by
  simp [Voice.bs, extract_two_congr h14 h15]

/-! ### `STOP0 <- 1` -/

theorem Voice.setStop0_bit (v : Voice) (j : Nat) :
    v.setStop0.control.getLsbD j = if j = 0 then true else v.control.getLsbD j :=
  getLsbD_setBit _ _ _ _ (by decide)

@[simp] theorem Voice.setStop0_stop0 (v : Voice) : v.setStop0.stop0 = true := by
  rw [Voice.stop0, Voice.setStop0_bit]; rfl
@[simp] theorem Voice.setStop0_stop1 (v : Voice) : v.setStop0.stop1 = v.stop1 := by
  rw [Voice.stop1, Voice.setStop0_bit]; rfl
@[simp] theorem Voice.setStop0_lei (v : Voice) : v.setStop0.lei = v.lei := by
  rw [Voice.lei, Voice.setStop0_bit]; rfl
@[simp] theorem Voice.setStop0_irqe (v : Voice) : v.setStop0.irqe = v.irqe := by
  rw [Voice.irqe, Voice.setStop0_bit]; rfl
@[simp] theorem Voice.setStop0_dir (v : Voice) : v.setStop0.dir = v.dir := by
  rw [Voice.dir, Voice.setStop0_bit]; rfl
@[simp] theorem Voice.setStop0_irq (v : Voice) : v.setStop0.irq = v.irq := by
  rw [Voice.irq, Voice.setStop0_bit]; rfl
@[simp] theorem Voice.setStop0_cmpd (v : Voice) : v.setStop0.cmpd = v.cmpd := by
  rw [Voice.cmpd, Voice.setStop0_bit]; rfl
@[simp] theorem Voice.setStop0_loopMode (v : Voice) : v.setStop0.loopMode = v.loopMode :=
  Voice.loopMode_congr (by rw [Voice.setStop0_bit]; rfl) (by rw [Voice.setStop0_bit]; rfl)
@[simp] theorem Voice.setStop0_poleMode (v : Voice) : v.setStop0.poleMode = v.poleMode :=
  Voice.poleMode_congr (by rw [Voice.setStop0_bit]; rfl) (by rw [Voice.setStop0_bit]; rfl)
@[simp] theorem Voice.setStop0_bs (v : Voice) : v.setStop0.bs = v.bs :=
  Voice.bs_congr (by rw [Voice.setStop0_bit]; rfl) (by rw [Voice.setStop0_bit]; rfl)
@[simp] theorem Voice.setStop0_stopped (v : Voice) : v.setStop0.stopped = true := by simp [Voice.stopped]

/-! ### `IRQ <- b` -/

theorem Voice.setIrq_bit (v : Voice) (b : Bool) (j : Nat) :
    (v.setIrq b).control.getLsbD j = if j = 7 then b else v.control.getLsbD j :=
  getLsbD_setBit _ _ _ _ (by decide)

@[simp] theorem Voice.setIrq_irq (v : Voice) (b : Bool) : (v.setIrq b).irq = b := by
  rw [Voice.irq, Voice.setIrq_bit]; rfl
@[simp] theorem Voice.setIrq_stop0 (v : Voice) (b : Bool) : (v.setIrq b).stop0 = v.stop0 := by
  rw [Voice.stop0, Voice.setIrq_bit]; rfl
@[simp] theorem Voice.setIrq_stop1 (v : Voice) (b : Bool) : (v.setIrq b).stop1 = v.stop1 := by
  rw [Voice.stop1, Voice.setIrq_bit]; rfl
@[simp] theorem Voice.setIrq_stopped (v : Voice) (b : Bool) : (v.setIrq b).stopped = v.stopped := by
  simp [Voice.stopped]
@[simp] theorem Voice.setIrq_lei (v : Voice) (b : Bool) : (v.setIrq b).lei = v.lei := by
  rw [Voice.lei, Voice.setIrq_bit]; rfl
@[simp] theorem Voice.setIrq_irqe (v : Voice) (b : Bool) : (v.setIrq b).irqe = v.irqe := by
  rw [Voice.irqe, Voice.setIrq_bit]; rfl
@[simp] theorem Voice.setIrq_dir (v : Voice) (b : Bool) : (v.setIrq b).dir = v.dir := by
  rw [Voice.dir, Voice.setIrq_bit]; rfl
@[simp] theorem Voice.setIrq_cmpd (v : Voice) (b : Bool) : (v.setIrq b).cmpd = v.cmpd := by
  rw [Voice.cmpd, Voice.setIrq_bit]; rfl
@[simp] theorem Voice.setIrq_loopMode (v : Voice) (b : Bool) : (v.setIrq b).loopMode = v.loopMode :=
  Voice.loopMode_congr (by rw [Voice.setIrq_bit]; rfl) (by rw [Voice.setIrq_bit]; rfl)
@[simp] theorem Voice.setIrq_poleMode (v : Voice) (b : Bool) : (v.setIrq b).poleMode = v.poleMode :=
  Voice.poleMode_congr (by rw [Voice.setIrq_bit]; rfl) (by rw [Voice.setIrq_bit]; rfl)
@[simp] theorem Voice.setIrq_bs (v : Voice) (b : Bool) : (v.setIrq b).bs = v.bs :=
  Voice.bs_congr (by rw [Voice.setIrq_bit]; rfl) (by rw [Voice.setIrq_bit]; rfl)

/-! ### `DIR <- DIR ^ 1` -/

theorem Voice.flipDir_bit (v : Voice) (j : Nat) :
    v.flipDir.control.getLsbD j = if j = 6 then !v.dir else v.control.getLsbD j :=
  getLsbD_setBit _ _ _ _ (by decide)

@[simp] theorem Voice.flipDir_dir (v : Voice) : v.flipDir.dir = !v.dir := by
  rw [Voice.dir, Voice.flipDir_bit]; rfl
@[simp] theorem Voice.flipDir_lei (v : Voice) : v.flipDir.lei = v.lei := by
  rw [Voice.lei, Voice.flipDir_bit]; rfl
@[simp] theorem Voice.flipDir_irqe (v : Voice) : v.flipDir.irqe = v.irqe := by
  rw [Voice.irqe, Voice.flipDir_bit]; rfl
@[simp] theorem Voice.flipDir_irq (v : Voice) : v.flipDir.irq = v.irq := by
  rw [Voice.irq, Voice.flipDir_bit]; rfl
@[simp] theorem Voice.flipDir_stop0 (v : Voice) : v.flipDir.stop0 = v.stop0 := by
  rw [Voice.stop0, Voice.flipDir_bit]; rfl
@[simp] theorem Voice.flipDir_stop1 (v : Voice) : v.flipDir.stop1 = v.stop1 := by
  rw [Voice.stop1, Voice.flipDir_bit]; rfl
@[simp] theorem Voice.flipDir_loopMode (v : Voice) : v.flipDir.loopMode = v.loopMode :=
  Voice.loopMode_congr (by rw [Voice.flipDir_bit]; rfl) (by rw [Voice.flipDir_bit]; rfl)

/-! ### `LOOP <- 0; LEI <- 1` -/

theorem Voice.endTransWave_bit (v : Voice) (j : Nat) :
    v.endTransWave.control.getLsbD j =
      if j = 2 then true else if j = 4 then false else if j = 3 then false else v.control.getLsbD j := by
  simp [Voice.endTransWave, getLsbD_setBit]

@[simp] theorem Voice.endTransWave_lei (v : Voice) : v.endTransWave.lei = true := by
  rw [Voice.lei, Voice.endTransWave_bit]; rfl
@[simp] theorem Voice.endTransWave_loopMode (v : Voice) : v.endTransWave.loopMode = .oneShot := by
  rw [Voice.loopMode_eq, Voice.endTransWave_bit, Voice.endTransWave_bit]; rfl
@[simp] theorem Voice.endTransWave_irq (v : Voice) : v.endTransWave.irq = v.irq := by
  rw [Voice.irq, Voice.endTransWave_bit]; rfl
@[simp] theorem Voice.endTransWave_dir (v : Voice) : v.endTransWave.dir = v.dir := by
  rw [Voice.dir, Voice.endTransWave_bit]; rfl
@[simp] theorem Voice.endTransWave_irqe (v : Voice) : v.endTransWave.irqe = v.irqe := by
  rw [Voice.irqe, Voice.endTransWave_bit]; rfl
@[simp] theorem Voice.endTransWave_stop0 (v : Voice) : v.endTransWave.stop0 = v.stop0 := by
  rw [Voice.stop0, Voice.endTransWave_bit]; rfl
@[simp] theorem Voice.endTransWave_stop1 (v : Voice) : v.endTransWave.stop1 = v.stop1 := by
  rw [Voice.stop1, Voice.endTransWave_bit]; rfl

end Sys2Proof.Machine
end

