-- ==== Sys2Proof/Laws/Ops.lean ====
section
/-! SUPPORT. What each operation over the voices and the latch can do (spec/10_state.md R11, spec/60_exceptions.md R233). -/

namespace Sys2Proof.Machine

/-! ### Voices -/

@[simp] theorem Chip.voice_setVoice_same (c : Chip) (i : VoiceIx) (v : Voice) : (c.setVoice i v).voice i = v := by
  simp [Chip.voice, Chip.setVoice]

theorem Chip.voice_setVoice_of_ne (c : Chip) {i j : VoiceIx} (v : Voice) (h : j ≠ i) :
    (c.setVoice i v).voice j = c.voice j := by
  have h' : i.toNat ≠ j.toNat := fun e => h (BitVec.eq_of_toNat_eq e.symm)
  simp [Chip.voice, Chip.setVoice, h']

theorem Chip.voice_setVoice (c : Chip) (i j : VoiceIx) (v : Voice) :
    (c.setVoice i v).voice j = if j = i then v else c.voice j := by
  by_cases h : j = i
  · subst h; simp
  · simp [h, Chip.voice_setVoice_of_ne]

@[simp] theorem Chip.setVoice_voice (c : Chip) (i : VoiceIx) : c.setVoice i (c.voice i) = c := by
  simp [Chip.setVoice, Chip.voice]

/-- Two blocks with the same voices and the same globals are the same. -/
theorem Chip.ext_voice {c d : Chip} (h : ∀ i, c.voice i = d.voice i) (h1 : c.activeVoices = d.activeVoices)
    (h2 : c.currentPage = d.currentPage) (h3 : c.mode = d.mode) (h4 : c.irqVector = d.irqVector)
    (h5 : c.irqLine = d.irqLine) : c = d := by
  have hv : c.voices = d.voices := by
    apply Vector.ext
    intro n hn
    have := h (BitVec.ofNat 5 n)
    simpa [Chip.voice, Nat.mod_eq_of_lt hn] using this
  cases c; cases d; simp_all

@[simp] theorem Chip.voice_reset (i : VoiceIx) : Chip.reset.voice i = Voice.reset := by
  simp [Chip.voice, Chip.reset]

theorem State.voice_eq (s : State) (i : VoiceIx) : s.voice i = s.chip.voice i := rfl

theorem ofNat5_toNat {n : Nat} (h : n < 32) : (BitVec.ofNat 5 n).toNat = n := by
  simp [Nat.mod_eq_of_lt h]

theorem ofNat5_ne {n : Nat} {i : VoiceIx} (h : n < 32) (hi : n ≠ i.toNat) : i ≠ BitVec.ofNat 5 n := by
  intro e
  exact hi (by rw [e, ofNat5_toNat h])

/-! ### The latch -/

theorem Chip.voice_latch (c : Chip) (i j : VoiceIx) :
    (c.latch i).voice j = if j = i then (c.voice i).setIrq false else c.voice j :=
  Chip.voice_setVoice c i j _

@[simp] theorem Chip.voice_acknowledge (c : Chip) (i : VoiceIx) : c.acknowledge.voice i = c.voice i := rfl

@[simp] theorem Chip.idle_acknowledge (c : Chip) : c.acknowledge.idle = true := by
  show idleVector.getLsbD 7 = true
  decide

@[simp] theorem Chip.idle_latch (c : Chip) (i : VoiceIx) : (c.latch i).idle = false := by
  have : ∀ i : VoiceIx, ((i.setWidth 8 : Byte).getLsbD 7) = false := by decide
  exact this i

/-- One scan either takes the voice, from Idle with the flag set, or changes nothing (R233). -/
theorem Chip.irqScan_cases (c : Chip) (i : VoiceIx) :
    (c.idle = true ∧ (c.voice i).irq = true ∧ c.irqScan i = c.latch i) ∨
      ((c.idle = false ∨ (c.voice i).irq = false) ∧ c.irqScan i = c) := by
  unfold Chip.irqScan
  by_cases h : (c.voice i).irq = true <;> by_cases h' : c.idle = true <;> simp_all

/-- A scan from a busy latch changes nothing (R233, R234). -/
theorem Chip.scanBelow_busy (c : Chip) (n : Nat) (h : c.idle = false) : c.scanBelow n = c := by
  induction n with
  | zero => rfl
  | succ n ih => simp [Chip.scanBelow, ih, Chip.irqScan, h]

/-- A whole scan changes nothing, or takes one voice whose flag is set. -/
theorem Chip.scanBelow_cases (c : Chip) (n : Nat) (hn : n ≤ 32) :
    c.scanBelow n = c ∨
      ∃ i : VoiceIx, i.toNat < n ∧ c.idle = true ∧ (c.voice i).irq = true ∧ c.scanBelow n = c.latch i := by
  induction n with
  | zero => exact .inl rfl
  | succ n ih =>
    have hlt : n < 32 := by omega
    rcases ih (by omega) with h | ⟨i, hi, hidle, hirq, h⟩
    · rcases Chip.irqScan_cases c (BitVec.ofNat 5 n) with ⟨hi, hf, e⟩ | ⟨_, e⟩
      · exact .inr ⟨BitVec.ofNat 5 n, by rw [ofNat5_toNat hlt]; omega, hi, hf, by simp [Chip.scanBelow, h, e]⟩
      · exact .inl (by simp [Chip.scanBelow, h, e])
    · refine .inr ⟨i, by omega, hidle, hirq, ?_⟩
      rw [Chip.scanBelow, h]
      rcases Chip.irqScan_cases (c.latch i) (BitVec.ofNat 5 n) with ⟨hi, -, -⟩ | ⟨_, e⟩
      · simp at hi
      · exact e

@[simp] theorem Chip.scanBelow_activeVoices (c : Chip) (n : Nat) (hn : n ≤ 32) :
    (c.scanBelow n).activeVoices = c.activeVoices := by
  rcases Chip.scanBelow_cases c n hn with h | ⟨i, -, -, -, h⟩ <;> simp [h]

@[simp] theorem Chip.scanBelow_currentPage (c : Chip) (n : Nat) (hn : n ≤ 32) :
    (c.scanBelow n).currentPage = c.currentPage := by
  rcases Chip.scanBelow_cases c n hn with h | ⟨i, -, -, -, h⟩ <;> simp [h]

@[simp] theorem Chip.scanBelow_mode (c : Chip) (n : Nat) (hn : n ≤ 32) : (c.scanBelow n).mode = c.mode := by
  rcases Chip.scanBelow_cases c n hn with h | ⟨i, -, -, -, h⟩ <;> simp [h]

/-- A voice after the scan is the voice before it, or that voice with its flag cleared because the latch took it. -/
theorem Chip.voice_scanBelow (c : Chip) (n : Nat) (hn : n ≤ 32) (j : VoiceIx) :
    (c.scanBelow n).voice j = c.voice j ∨
      ((c.scanBelow n).voice j = (c.voice j).setIrq false ∧ j.toNat < n ∧ (c.voice j).irq = true ∧
        c.idle = true ∧ c.scanBelow n = c.latch j) := by
  rcases Chip.scanBelow_cases c n hn with h | ⟨i, hi, hidle, hirq, h⟩
  · exact .inl (by rw [h])
  · by_cases e : j = i
    · subst e
      exact .inr ⟨by simp [h, Chip.voice_latch], hi, hirq, hidle, h⟩
    · exact .inl (by simp [h, Chip.voice_latch, e])

theorem Chip.servicedCount_le (c : Chip) : c.servicedCount ≤ 32 := by
  have := c.activeVoices.isLt
  unfold Chip.servicedCount
  omega

end Sys2Proof.Machine
end

