-- ==== Sys2Proof/Laws/Memory.lean ====
section
/-! SUPPORT. The sample regions: every operation keeps the canonical form, a read after a write gives the byte written, and a
write leaves every other index alone (spec/20_memory.md R41, R53; log entry 5). -/

namespace Sys2Proof.Machine

theorem cellsWf_mono {len lo lo' : Nat} {l : List Host.Cell} (h : cellsWf len lo l = true) (hle : lo' ≤ lo) :
    cellsWf len lo' l = true := by
  cases l with
  | nil => rfl
  | cons c rest =>
    obtain ⟨a, b⟩ := c
    simp only [cellsWf, Bool.and_eq_true, decide_eq_true_eq] at h ⊢
    exact ⟨⟨⟨by omega, h.1.1.2⟩, h.1.2⟩, h.2⟩

/-- A write inside the region keeps the canonical form. -/
theorem cellsWf_cellSet {len lo i : Nat} {l : List Host.Cell} (b : Byte) (h : cellsWf len lo l = true)
    (hlo : lo ≤ i) (hi : i < len) : cellsWf len lo (cellSet l i b) = true := by
  induction l generalizing lo with
  | nil =>
    unfold cellSet
    split
    · rfl
    · next hb => simp [cellsWf, hlo, hi, hb]
  | cons c rest ih =>
    obtain ⟨a, x⟩ := c
    simp only [cellsWf, Bool.and_eq_true, decide_eq_true_eq] at h
    obtain ⟨⟨⟨h1, h2⟩, h3⟩, h4⟩ := h
    unfold cellSet
    by_cases hai : a < i
    · simp only [hai, if_true, cellsWf, Bool.and_eq_true, decide_eq_true_eq]
      exact ⟨⟨⟨h1, h2⟩, h3⟩, ih h4 (by omega)⟩
    · have htail : cellsWf len (i + 1) (if a = i then rest else (a, x) :: rest) = true := by
        by_cases e : a = i
        · simpa [e] using h4
        · simp only [e, if_false, cellsWf, Bool.and_eq_true, decide_eq_true_eq]
          exact ⟨⟨⟨by omega, h2⟩, h3⟩, h4⟩
      simp only [hai, if_false]
      by_cases hb : b = unlistedByte
      · simp only [hb, if_true]
        exact cellsWf_mono htail (by omega)
      · simp only [hb, if_false, cellsWf, Bool.and_eq_true, decide_eq_true_eq]
        exact ⟨⟨⟨hlo, hi⟩, hb⟩, htail⟩

theorem cellAt_of_lt {len lo i : Nat} {l : List Host.Cell} (h : cellsWf len lo l = true) (hi : i < lo) :
    cellAt l i = unlistedByte := by
  induction l generalizing lo with
  | nil => rfl
  | cons c rest ih =>
    obtain ⟨a, b⟩ := c
    simp only [cellsWf, Bool.and_eq_true, decide_eq_true_eq] at h
    have : a ≠ i := by omega
    simp [cellAt, this, ih h.2 (by omega)]

/-- What an index reads as after a write. -/
theorem cellAt_cellSet {len lo i : Nat} {l : List Host.Cell} (b : Byte) (j : Nat) (h : cellsWf len lo l = true) :
    cellAt (cellSet l i b) j = if j = i then b else cellAt l j := by
  induction l generalizing lo with
  | nil =>
    unfold cellSet
    by_cases hb : b = unlistedByte
    · simp [hb, cellAt]
    · by_cases e : j = i
      · simp [hb, cellAt, e]
      · simp [hb, cellAt, e, show ¬i = j by omega]
  | cons c rest ih =>
    obtain ⟨a, x⟩ := c
    simp only [cellsWf, Bool.and_eq_true, decide_eq_true_eq] at h
    obtain ⟨⟨⟨h1, h2⟩, h3⟩, h4⟩ := h
    unfold cellSet
    by_cases hai : a < i
    · simp only [hai, if_true, cellAt, ih h4]
      by_cases e : a = j
      · have : j ≠ i := by omega
        simp [e, this]
      · simp [e]
    · have htail : ∀ j, j ≠ i → cellAt (if a = i then rest else (a, x) :: rest) j = cellAt ((a, x) :: rest) j := by
        intro j hj
        by_cases e : a = i
        · have : a ≠ j := fun e' => hj (by omega)
          simp [e, cellAt, show ¬i = j by omega]
        · simp [e]
      have hin : cellAt (if a = i then rest else (a, x) :: rest) i = unlistedByte := by
        by_cases e : a = i
        · simp only [e, if_true]; exact cellAt_of_lt (e ▸ h4) (by omega)
        · simp only [e, if_false, cellAt]; exact cellAt_of_lt h4 (by omega)
      simp only [hai, if_false]
      by_cases hb : b = unlistedByte
      · simp only [hb, if_true]
        by_cases e : j = i
        · simp only [e, if_true]; exact hin
        · simp only [e, if_false]; exact htail j e
      · simp only [hb, if_false, cellAt]
        by_cases e : j = i
        · simp [e]
        · simp only [show ¬i = j by omega, e, if_false]
          exact htail j e

/-! ### Regions -/

theorem Region.wf_write (r : Region) (i : Nat) (b : Byte) (h : r.wf = true) : (r.write i b).wf = true := by
  unfold Region.write
  split
  · next hi => exact cellsWf_cellSet b h (by omega) hi
  · exact h

@[simp] theorem Region.len_write (r : Region) (i : Nat) (b : Byte) : (r.write i b).len = r.len := by
  unfold Region.write
  split <;> rfl

theorem Region.byteAt_write (r : Region) (i : Nat) (b : Byte) (j : Nat) (h : r.wf = true) (hi : i < r.len) :
    (r.write i b).byteAt j = if j = i then b else r.byteAt j := by
  simp only [Region.write, hi, if_true]
  exact cellAt_cellSet b j h

theorem cellsWf_cellsOf (n i : Nat) (bs : List Byte) (h : i + bs.length = n) : cellsWf n i (cellsOf i bs) = true := by
  induction bs generalizing i with
  | nil => rfl
  | cons b rest ih =>
    simp only [List.length_cons] at h
    unfold cellsOf
    split
    · exact cellsWf_mono (ih (i + 1) (by omega)) (by omega)
    · next hb =>
      simp only [cellsWf, Bool.and_eq_true, decide_eq_true_eq]
      exact ⟨⟨⟨le_refl _, by omega⟩, hb⟩, ih (i + 1) (by omega)⟩

/-- A region built from its bytes has the canonical form. -/
theorem Region.wf_ofBytes (bs : List Byte) : (Region.ofBytes bs).wf = true :=
  cellsWf_cellsOf _ 0 bs (by simp [Region.ofBytes])

/-! ### The four regions -/

theorem Memory.wf_iff (m : Memory) : Memory.wf m = true ↔ ∀ r x, Memory.region m r = some x → x.wf = true := by
  unfold Memory.wf Memory.region
  rw [List.all_eq_true]
  constructor
  · intro h r x hx
    have := h (some x) (by rw [← hx]; simp)
    simpa using this
  · intro h o ho
    rw [Vector.mem_toList_iff, Vector.mem_iff_getElem] at ho
    obtain ⟨n, hn, e⟩ := ho
    cases o with
    | none => rfl
    | some x =>
      have := h (BitVec.ofNat 2 n) x (by simpa [Nat.mod_eq_of_lt hn] using e)
      simpa using this

theorem Memory.region_setRegion (m : Memory) (r q : BitVec 2) (x : Option Region) :
    Memory.region (Memory.setRegion m r x) q = if q = r then x else Memory.region m q := by
  by_cases h : q = r
  · subst h; simp [Memory.region, Memory.setRegion]
  · have h' : r.toNat ≠ q.toNat := fun e => h (BitVec.eq_of_toNat_eq e.symm)
    simp [Memory.region, Memory.setRegion, h, h']

/-- Mapping a region in canonical form, or unmapping one, keeps the canonical form. -/
theorem Memory.wf_setRegion (m : Memory) (r : BitVec 2) (x : Option Region) (h : Memory.wf m = true)
    (hx : ∀ y, x = some y → y.wf = true) : Memory.wf (Memory.setRegion m r x) = true := by
  rw [Memory.wf_iff] at h ⊢
  intro q y hy
  rw [Memory.region_setRegion] at hy
  split at hy
  · exact hx y hy
  · exact h q y hy

/-- The platform's byte write keeps the canonical form. -/
theorem State.wf_platformWrite (s : State) (r : BitVec 2) (i : Nat) (b : Byte) (h : Memory.wf s.memory = true) :
    Memory.wf (s.platformWrite r i b).memory = true := by
  refine Memory.wf_setRegion _ _ _ h ?_
  intro y hy
  rw [Option.map_eq_some_iff] at hy
  obtain ⟨x, hx, rfl⟩ := hy
  exact Region.wf_write x i b ((Memory.wf_iff _).1 h r x hx)

/-- At reset nothing is listed. -/
theorem State.reset_memory_wf : Memory.wf State.reset.memory = true := by decide

end Sys2Proof.Machine
end

