-- ==== Sys2Proof/Laws/Advance.lean ====
section
/-! SUPPORT. What each operation of the voice state machine can do (spec/41_voice_state_machine.md), said once: the registers it
leaves alone, one lemma for each, and the cases of `Boundary`. -/

namespace Sys2Proof.Machine

/-! ### `Step` writes the position only (R142) -/

@[simp] theorem Voice.stepPosition_control (m : Word) (v : Voice) : (v.stepPosition m).control = v.control := by
  unfold Voice.stepPosition; split <;> rfl
@[simp] theorem Voice.stepPosition_start (m : Word) (v : Voice) : (v.stepPosition m).start = v.start := by
  unfold Voice.stepPosition; split <;> rfl
@[simp] theorem Voice.stepPosition_endPos (m : Word) (v : Voice) : (v.stepPosition m).endPos = v.endPos := by
  unfold Voice.stepPosition; split <;> rfl
@[simp] theorem Voice.stepPosition_freqcount (m : Word) (v : Voice) : (v.stepPosition m).freqcount = v.freqcount := by
  unfold Voice.stepPosition; split <;> rfl
@[simp] theorem Voice.stepPosition_leftVolume (m : Word) (v : Voice) : (v.stepPosition m).leftVolume = v.leftVolume := by
  unfold Voice.stepPosition; split <;> rfl
@[simp] theorem Voice.stepPosition_leftRamp (m : Word) (v : Voice) : (v.stepPosition m).leftRamp = v.leftRamp := by
  unfold Voice.stepPosition; split <;> rfl
@[simp] theorem Voice.stepPosition_rightVolume (m : Word) (v : Voice) : (v.stepPosition m).rightVolume = v.rightVolume := by
  unfold Voice.stepPosition; split <;> rfl
@[simp] theorem Voice.stepPosition_rightRamp (m : Word) (v : Voice) : (v.stepPosition m).rightRamp = v.rightRamp := by
  unfold Voice.stepPosition; split <;> rfl
@[simp] theorem Voice.stepPosition_envelopeCount (m : Word) (v : Voice) : (v.stepPosition m).envelopeCount = v.envelopeCount := by
  unfold Voice.stepPosition; split <;> rfl
@[simp] theorem Voice.stepPosition_k1 (m : Word) (v : Voice) : (v.stepPosition m).k1 = v.k1 := by
  unfold Voice.stepPosition; split <;> rfl
@[simp] theorem Voice.stepPosition_k1Ramp (m : Word) (v : Voice) : (v.stepPosition m).k1Ramp = v.k1Ramp := by
  unfold Voice.stepPosition; split <;> rfl
@[simp] theorem Voice.stepPosition_k2 (m : Word) (v : Voice) : (v.stepPosition m).k2 = v.k2 := by
  unfold Voice.stepPosition; split <;> rfl
@[simp] theorem Voice.stepPosition_k2Ramp (m : Word) (v : Voice) : (v.stepPosition m).k2Ramp = v.k2Ramp := by
  unfold Voice.stepPosition; split <;> rfl
@[simp] theorem Voice.stepPosition_o1 (m : Word) (v : Voice) : (v.stepPosition m).o1 = v.o1 := by
  unfold Voice.stepPosition; split <;> rfl
@[simp] theorem Voice.stepPosition_o2 (m : Word) (v : Voice) : (v.stepPosition m).o2 = v.o2 := by
  unfold Voice.stepPosition; split <;> rfl
@[simp] theorem Voice.stepPosition_o3 (m : Word) (v : Voice) : (v.stepPosition m).o3 = v.o3 := by
  unfold Voice.stepPosition; split <;> rfl
@[simp] theorem Voice.stepPosition_o4 (m : Word) (v : Voice) : (v.stepPosition m).o4 = v.o4 := by
  unfold Voice.stepPosition; split <;> rfl
@[simp] theorem Voice.stepPosition_exbank (m : Word) (v : Voice) : (v.stepPosition m).exbank = v.exbank := by
  unfold Voice.stepPosition; split <;> rfl
@[simp] theorem Voice.stepPosition_filtcount (m : Word) (v : Voice) : (v.stepPosition m).filtcount = v.filtcount := by
  unfold Voice.stepPosition; split <;> rfl

/-! ### `Wrap` writes the position only (R147) -/

@[simp] theorem Voice.wrap_control (m : Word) (v : Voice) : (v.wrap m).control = v.control := by
  unfold Voice.wrap; split <;> rfl
@[simp] theorem Voice.wrap_start (m : Word) (v : Voice) : (v.wrap m).start = v.start := by
  unfold Voice.wrap; split <;> rfl
@[simp] theorem Voice.wrap_endPos (m : Word) (v : Voice) : (v.wrap m).endPos = v.endPos := by
  unfold Voice.wrap; split <;> rfl
@[simp] theorem Voice.wrap_freqcount (m : Word) (v : Voice) : (v.wrap m).freqcount = v.freqcount := by
  unfold Voice.wrap; split <;> rfl
@[simp] theorem Voice.wrap_leftVolume (m : Word) (v : Voice) : (v.wrap m).leftVolume = v.leftVolume := by
  unfold Voice.wrap; split <;> rfl
@[simp] theorem Voice.wrap_leftRamp (m : Word) (v : Voice) : (v.wrap m).leftRamp = v.leftRamp := by
  unfold Voice.wrap; split <;> rfl
@[simp] theorem Voice.wrap_rightVolume (m : Word) (v : Voice) : (v.wrap m).rightVolume = v.rightVolume := by
  unfold Voice.wrap; split <;> rfl
@[simp] theorem Voice.wrap_rightRamp (m : Word) (v : Voice) : (v.wrap m).rightRamp = v.rightRamp := by
  unfold Voice.wrap; split <;> rfl
@[simp] theorem Voice.wrap_envelopeCount (m : Word) (v : Voice) : (v.wrap m).envelopeCount = v.envelopeCount := by
  unfold Voice.wrap; split <;> rfl
@[simp] theorem Voice.wrap_k1 (m : Word) (v : Voice) : (v.wrap m).k1 = v.k1 := by
  unfold Voice.wrap; split <;> rfl
@[simp] theorem Voice.wrap_k1Ramp (m : Word) (v : Voice) : (v.wrap m).k1Ramp = v.k1Ramp := by
  unfold Voice.wrap; split <;> rfl
@[simp] theorem Voice.wrap_k2 (m : Word) (v : Voice) : (v.wrap m).k2 = v.k2 := by
  unfold Voice.wrap; split <;> rfl
@[simp] theorem Voice.wrap_k2Ramp (m : Word) (v : Voice) : (v.wrap m).k2Ramp = v.k2Ramp := by
  unfold Voice.wrap; split <;> rfl
@[simp] theorem Voice.wrap_o1 (m : Word) (v : Voice) : (v.wrap m).o1 = v.o1 := by
  unfold Voice.wrap; split <;> rfl
@[simp] theorem Voice.wrap_o2 (m : Word) (v : Voice) : (v.wrap m).o2 = v.o2 := by
  unfold Voice.wrap; split <;> rfl
@[simp] theorem Voice.wrap_o3 (m : Word) (v : Voice) : (v.wrap m).o3 = v.o3 := by
  unfold Voice.wrap; split <;> rfl
@[simp] theorem Voice.wrap_o4 (m : Word) (v : Voice) : (v.wrap m).o4 = v.o4 := by
  unfold Voice.wrap; split <;> rfl
@[simp] theorem Voice.wrap_exbank (m : Word) (v : Voice) : (v.wrap m).exbank = v.exbank := by
  unfold Voice.wrap; split <;> rfl
@[simp] theorem Voice.wrap_filtcount (m : Word) (v : Voice) : (v.wrap m).filtcount = v.filtcount := by
  unfold Voice.wrap; split <;> rfl

/-! ### `Reflect` writes the position and `DIR` only (R149) -/

@[simp] theorem Voice.reflect_start (m : Word) (v : Voice) : (v.reflect m).start = v.start := by
  unfold Voice.reflect; split <;> rfl
@[simp] theorem Voice.reflect_endPos (m : Word) (v : Voice) : (v.reflect m).endPos = v.endPos := by
  unfold Voice.reflect; split <;> rfl
@[simp] theorem Voice.reflect_freqcount (m : Word) (v : Voice) : (v.reflect m).freqcount = v.freqcount := by
  unfold Voice.reflect; split <;> rfl
@[simp] theorem Voice.reflect_leftVolume (m : Word) (v : Voice) : (v.reflect m).leftVolume = v.leftVolume := by
  unfold Voice.reflect; split <;> rfl
@[simp] theorem Voice.reflect_leftRamp (m : Word) (v : Voice) : (v.reflect m).leftRamp = v.leftRamp := by
  unfold Voice.reflect; split <;> rfl
@[simp] theorem Voice.reflect_rightVolume (m : Word) (v : Voice) : (v.reflect m).rightVolume = v.rightVolume := by
  unfold Voice.reflect; split <;> rfl
@[simp] theorem Voice.reflect_rightRamp (m : Word) (v : Voice) : (v.reflect m).rightRamp = v.rightRamp := by
  unfold Voice.reflect; split <;> rfl
@[simp] theorem Voice.reflect_envelopeCount (m : Word) (v : Voice) : (v.reflect m).envelopeCount = v.envelopeCount := by
  unfold Voice.reflect; split <;> rfl
@[simp] theorem Voice.reflect_k1 (m : Word) (v : Voice) : (v.reflect m).k1 = v.k1 := by
  unfold Voice.reflect; split <;> rfl
@[simp] theorem Voice.reflect_k1Ramp (m : Word) (v : Voice) : (v.reflect m).k1Ramp = v.k1Ramp := by
  unfold Voice.reflect; split <;> rfl
@[simp] theorem Voice.reflect_k2 (m : Word) (v : Voice) : (v.reflect m).k2 = v.k2 := by
  unfold Voice.reflect; split <;> rfl
@[simp] theorem Voice.reflect_k2Ramp (m : Word) (v : Voice) : (v.reflect m).k2Ramp = v.k2Ramp := by
  unfold Voice.reflect; split <;> rfl
@[simp] theorem Voice.reflect_o1 (m : Word) (v : Voice) : (v.reflect m).o1 = v.o1 := by
  unfold Voice.reflect; split <;> rfl
@[simp] theorem Voice.reflect_o2 (m : Word) (v : Voice) : (v.reflect m).o2 = v.o2 := by
  unfold Voice.reflect; split <;> rfl
@[simp] theorem Voice.reflect_o3 (m : Word) (v : Voice) : (v.reflect m).o3 = v.o3 := by
  unfold Voice.reflect; split <;> rfl
@[simp] theorem Voice.reflect_o4 (m : Word) (v : Voice) : (v.reflect m).o4 = v.o4 := by
  unfold Voice.reflect; split <;> rfl
@[simp] theorem Voice.reflect_exbank (m : Word) (v : Voice) : (v.reflect m).exbank = v.exbank := by
  unfold Voice.reflect; split <;> rfl
@[simp] theorem Voice.reflect_filtcount (m : Word) (v : Voice) : (v.reflect m).filtcount = v.filtcount := by
  unfold Voice.reflect; split <;> rfl

/-! ### The completion flag (R146) -/

@[simp] theorem Voice.noteCompletion_start (v : Voice) : (v.noteCompletion).start = v.start := by
  unfold Voice.noteCompletion; split <;> rfl
@[simp] theorem Voice.noteCompletion_endPos (v : Voice) : (v.noteCompletion).endPos = v.endPos := by
  unfold Voice.noteCompletion; split <;> rfl
@[simp] theorem Voice.noteCompletion_accumulator (v : Voice) : (v.noteCompletion).accumulator = v.accumulator := by
  unfold Voice.noteCompletion; split <;> rfl
@[simp] theorem Voice.noteCompletion_freqcount (v : Voice) : (v.noteCompletion).freqcount = v.freqcount := by
  unfold Voice.noteCompletion; split <;> rfl
@[simp] theorem Voice.noteCompletion_leftVolume (v : Voice) : (v.noteCompletion).leftVolume = v.leftVolume := by
  unfold Voice.noteCompletion; split <;> rfl
@[simp] theorem Voice.noteCompletion_leftRamp (v : Voice) : (v.noteCompletion).leftRamp = v.leftRamp := by
  unfold Voice.noteCompletion; split <;> rfl
@[simp] theorem Voice.noteCompletion_rightVolume (v : Voice) : (v.noteCompletion).rightVolume = v.rightVolume := by
  unfold Voice.noteCompletion; split <;> rfl
@[simp] theorem Voice.noteCompletion_rightRamp (v : Voice) : (v.noteCompletion).rightRamp = v.rightRamp := by
  unfold Voice.noteCompletion; split <;> rfl
@[simp] theorem Voice.noteCompletion_envelopeCount (v : Voice) : (v.noteCompletion).envelopeCount = v.envelopeCount := by
  unfold Voice.noteCompletion; split <;> rfl
@[simp] theorem Voice.noteCompletion_k1 (v : Voice) : (v.noteCompletion).k1 = v.k1 := by
  unfold Voice.noteCompletion; split <;> rfl
@[simp] theorem Voice.noteCompletion_k1Ramp (v : Voice) : (v.noteCompletion).k1Ramp = v.k1Ramp := by
  unfold Voice.noteCompletion; split <;> rfl
@[simp] theorem Voice.noteCompletion_k2 (v : Voice) : (v.noteCompletion).k2 = v.k2 := by
  unfold Voice.noteCompletion; split <;> rfl
@[simp] theorem Voice.noteCompletion_k2Ramp (v : Voice) : (v.noteCompletion).k2Ramp = v.k2Ramp := by
  unfold Voice.noteCompletion; split <;> rfl
@[simp] theorem Voice.noteCompletion_o1 (v : Voice) : (v.noteCompletion).o1 = v.o1 := by
  unfold Voice.noteCompletion; split <;> rfl
@[simp] theorem Voice.noteCompletion_o2 (v : Voice) : (v.noteCompletion).o2 = v.o2 := by
  unfold Voice.noteCompletion; split <;> rfl
@[simp] theorem Voice.noteCompletion_o3 (v : Voice) : (v.noteCompletion).o3 = v.o3 := by
  unfold Voice.noteCompletion; split <;> rfl
@[simp] theorem Voice.noteCompletion_o4 (v : Voice) : (v.noteCompletion).o4 = v.o4 := by
  unfold Voice.noteCompletion; split <;> rfl
@[simp] theorem Voice.noteCompletion_exbank (v : Voice) : (v.noteCompletion).exbank = v.exbank := by
  unfold Voice.noteCompletion; split <;> rfl
@[simp] theorem Voice.noteCompletion_filtcount (v : Voice) : (v.noteCompletion).filtcount = v.filtcount := by
  unfold Voice.noteCompletion; split <;> rfl

/-! ### The coefficient ramps (R154) -/

@[simp] theorem Voice.coefficientRamps_control (v : Voice) : (v.coefficientRamps).control = v.control := by
  unfold Voice.coefficientRamps; split <;> rfl
@[simp] theorem Voice.coefficientRamps_start (v : Voice) : (v.coefficientRamps).start = v.start := by
  unfold Voice.coefficientRamps; split <;> rfl
@[simp] theorem Voice.coefficientRamps_endPos (v : Voice) : (v.coefficientRamps).endPos = v.endPos := by
  unfold Voice.coefficientRamps; split <;> rfl
@[simp] theorem Voice.coefficientRamps_accumulator (v : Voice) : (v.coefficientRamps).accumulator = v.accumulator := by
  unfold Voice.coefficientRamps; split <;> rfl
@[simp] theorem Voice.coefficientRamps_freqcount (v : Voice) : (v.coefficientRamps).freqcount = v.freqcount := by
  unfold Voice.coefficientRamps; split <;> rfl
@[simp] theorem Voice.coefficientRamps_leftVolume (v : Voice) : (v.coefficientRamps).leftVolume = v.leftVolume := by
  unfold Voice.coefficientRamps; split <;> rfl
@[simp] theorem Voice.coefficientRamps_leftRamp (v : Voice) : (v.coefficientRamps).leftRamp = v.leftRamp := by
  unfold Voice.coefficientRamps; split <;> rfl
@[simp] theorem Voice.coefficientRamps_rightVolume (v : Voice) : (v.coefficientRamps).rightVolume = v.rightVolume := by
  unfold Voice.coefficientRamps; split <;> rfl
@[simp] theorem Voice.coefficientRamps_rightRamp (v : Voice) : (v.coefficientRamps).rightRamp = v.rightRamp := by
  unfold Voice.coefficientRamps; split <;> rfl
@[simp] theorem Voice.coefficientRamps_envelopeCount (v : Voice) : (v.coefficientRamps).envelopeCount = v.envelopeCount := by
  unfold Voice.coefficientRamps; split <;> rfl
@[simp] theorem Voice.coefficientRamps_k1Ramp (v : Voice) : (v.coefficientRamps).k1Ramp = v.k1Ramp := by
  unfold Voice.coefficientRamps; split <;> rfl
@[simp] theorem Voice.coefficientRamps_k2Ramp (v : Voice) : (v.coefficientRamps).k2Ramp = v.k2Ramp := by
  unfold Voice.coefficientRamps; split <;> rfl
@[simp] theorem Voice.coefficientRamps_o1 (v : Voice) : (v.coefficientRamps).o1 = v.o1 := by
  unfold Voice.coefficientRamps; split <;> rfl
@[simp] theorem Voice.coefficientRamps_o2 (v : Voice) : (v.coefficientRamps).o2 = v.o2 := by
  unfold Voice.coefficientRamps; split <;> rfl
@[simp] theorem Voice.coefficientRamps_o3 (v : Voice) : (v.coefficientRamps).o3 = v.o3 := by
  unfold Voice.coefficientRamps; split <;> rfl
@[simp] theorem Voice.coefficientRamps_o4 (v : Voice) : (v.coefficientRamps).o4 = v.o4 := by
  unfold Voice.coefficientRamps; split <;> rfl
@[simp] theorem Voice.coefficientRamps_exbank (v : Voice) : (v.coefficientRamps).exbank = v.exbank := by
  unfold Voice.coefficientRamps; split <;> rfl

/-! ### Fields of `control` under the operations that do not write them -/

@[simp] theorem Voice.stepPosition_dir (m : Word) (v : Voice) : (v.stepPosition m).dir = v.dir := by
  simp only [Voice.dir, Voice.stepPosition_control]
@[simp] theorem Voice.stepPosition_lei (m : Word) (v : Voice) : (v.stepPosition m).lei = v.lei := by
  simp only [Voice.lei, Voice.stepPosition_control]
@[simp] theorem Voice.stepPosition_irq (m : Word) (v : Voice) : (v.stepPosition m).irq = v.irq := by
  simp only [Voice.irq, Voice.stepPosition_control]
@[simp] theorem Voice.stepPosition_irqe (m : Word) (v : Voice) : (v.stepPosition m).irqe = v.irqe := by
  simp only [Voice.irqe, Voice.stepPosition_control]
@[simp] theorem Voice.stepPosition_loopMode (m : Word) (v : Voice) : (v.stepPosition m).loopMode = v.loopMode := by
  simp only [Voice.loopMode, Voice.loop, Voice.stepPosition_control]
@[simp] theorem Voice.stepPosition_poleMode (m : Word) (v : Voice) : (v.stepPosition m).poleMode = v.poleMode := by
  simp only [Voice.poleMode, Voice.lp, Voice.stepPosition_control]
@[simp] theorem Voice.stepPosition_stopped (m : Word) (v : Voice) : (v.stepPosition m).stopped = v.stopped := by
  simp only [Voice.stopped, Voice.stop0, Voice.stop1, Voice.stepPosition_control]
@[simp] theorem Voice.stepPosition_stop0 (m : Word) (v : Voice) : (v.stepPosition m).stop0 = v.stop0 := by
  simp only [Voice.stop0, Voice.stepPosition_control]
@[simp] theorem Voice.stepPosition_stop1 (m : Word) (v : Voice) : (v.stepPosition m).stop1 = v.stop1 := by
  simp only [Voice.stop1, Voice.stepPosition_control]
@[simp] theorem Voice.stepPosition_bs (m : Word) (v : Voice) : (v.stepPosition m).bs = v.bs := by
  simp only [Voice.bs, Voice.stepPosition_control]
@[simp] theorem Voice.stepPosition_cmpd (m : Word) (v : Voice) : (v.stepPosition m).cmpd = v.cmpd := by
  simp only [Voice.cmpd, Voice.stepPosition_control]
@[simp] theorem Voice.wrap_dir (m : Word) (v : Voice) : (v.wrap m).dir = v.dir := by
  simp only [Voice.dir, Voice.wrap_control]
@[simp] theorem Voice.wrap_lei (m : Word) (v : Voice) : (v.wrap m).lei = v.lei := by
  simp only [Voice.lei, Voice.wrap_control]
@[simp] theorem Voice.wrap_irq (m : Word) (v : Voice) : (v.wrap m).irq = v.irq := by
  simp only [Voice.irq, Voice.wrap_control]
@[simp] theorem Voice.wrap_irqe (m : Word) (v : Voice) : (v.wrap m).irqe = v.irqe := by
  simp only [Voice.irqe, Voice.wrap_control]
@[simp] theorem Voice.wrap_loopMode (m : Word) (v : Voice) : (v.wrap m).loopMode = v.loopMode := by
  simp only [Voice.loopMode, Voice.loop, Voice.wrap_control]
@[simp] theorem Voice.wrap_poleMode (m : Word) (v : Voice) : (v.wrap m).poleMode = v.poleMode := by
  simp only [Voice.poleMode, Voice.lp, Voice.wrap_control]
@[simp] theorem Voice.wrap_stopped (m : Word) (v : Voice) : (v.wrap m).stopped = v.stopped := by
  simp only [Voice.stopped, Voice.stop0, Voice.stop1, Voice.wrap_control]
@[simp] theorem Voice.wrap_stop0 (m : Word) (v : Voice) : (v.wrap m).stop0 = v.stop0 := by
  simp only [Voice.stop0, Voice.wrap_control]
@[simp] theorem Voice.wrap_stop1 (m : Word) (v : Voice) : (v.wrap m).stop1 = v.stop1 := by
  simp only [Voice.stop1, Voice.wrap_control]
@[simp] theorem Voice.wrap_bs (m : Word) (v : Voice) : (v.wrap m).bs = v.bs := by
  simp only [Voice.bs, Voice.wrap_control]
@[simp] theorem Voice.wrap_cmpd (m : Word) (v : Voice) : (v.wrap m).cmpd = v.cmpd := by
  simp only [Voice.cmpd, Voice.wrap_control]

@[simp] theorem Voice.noteCompletion_lei (v : Voice) : v.noteCompletion.lei = v.lei := by
  unfold Voice.noteCompletion; split <;> simp
@[simp] theorem Voice.noteCompletion_irqe (v : Voice) : v.noteCompletion.irqe = v.irqe := by
  unfold Voice.noteCompletion; split <;> simp
@[simp] theorem Voice.noteCompletion_loopMode (v : Voice) : v.noteCompletion.loopMode = v.loopMode := by
  unfold Voice.noteCompletion; split <;> simp
@[simp] theorem Voice.noteCompletion_dir (v : Voice) : v.noteCompletion.dir = v.dir := by
  unfold Voice.noteCompletion; split <;> simp
@[simp] theorem Voice.noteCompletion_stop0 (v : Voice) : v.noteCompletion.stop0 = v.stop0 := by
  unfold Voice.noteCompletion; split <;> simp
@[simp] theorem Voice.noteCompletion_stop1 (v : Voice) : v.noteCompletion.stop1 = v.stop1 := by
  unfold Voice.noteCompletion; split <;> simp

@[simp] theorem Voice.noteCompletion_irq (v : Voice) : v.noteCompletion.irq = (v.irqe || v.irq) := by
  unfold Voice.noteCompletion
  split <;> simp_all

/-- Reflecting keeps the loop mode, the inhibit and the enable, and flips the direction (R149). -/
theorem Voice.reflect_eq (m : Word) (v : Voice) :
    v.reflect m = { v with accumulator := (v.reflect m).accumulator }.flipDir := by
  unfold Voice.reflect
  split <;> rfl

@[simp] theorem Voice.reflect_lei (m : Word) (v : Voice) : (v.reflect m).lei = v.lei := by
  rw [Voice.reflect_eq, Voice.flipDir_lei]; rfl
@[simp] theorem Voice.reflect_irqe (m : Word) (v : Voice) : (v.reflect m).irqe = v.irqe := by
  rw [Voice.reflect_eq, Voice.flipDir_irqe]; rfl
@[simp] theorem Voice.reflect_loopMode (m : Word) (v : Voice) : (v.reflect m).loopMode = v.loopMode := by
  rw [Voice.reflect_eq, Voice.flipDir_loopMode]; rfl
@[simp] theorem Voice.reflect_irq (m : Word) (v : Voice) : (v.reflect m).irq = v.irq := by
  rw [Voice.reflect_eq, Voice.flipDir_irq]; rfl
@[simp] theorem Voice.reflect_stop0 (m : Word) (v : Voice) : (v.reflect m).stop0 = v.stop0 := by
  rw [Voice.reflect_eq, Voice.flipDir_stop0]; rfl
@[simp] theorem Voice.reflect_stop1 (m : Word) (v : Voice) : (v.reflect m).stop1 = v.stop1 := by
  rw [Voice.reflect_eq, Voice.flipDir_stop1]; rfl
@[simp] theorem Voice.reflect_dir (m : Word) (v : Voice) : (v.reflect m).dir = !v.dir := by
  rw [Voice.reflect_eq, Voice.flipDir_dir]; rfl

/-! ### Positions stay within the mask (R25) -/

theorem and_mask_mask (x m : Word) : x &&& m &&& m = x &&& m := by
  rw [BitVec.and_assoc, BitVec.and_self]

theorem Voice.stepPosition_masked (m : Word) (v : Voice) :
    (v.stepPosition m).accumulator &&& m = (v.stepPosition m).accumulator := by
  unfold Voice.stepPosition
  split <;> exact and_mask_mask _ _

theorem Voice.wrap_masked (m : Word) (v : Voice) : (v.wrap m).accumulator &&& m = (v.wrap m).accumulator := by
  unfold Voice.wrap
  split <;> exact and_mask_mask _ _

theorem Voice.reflect_masked (m : Word) (v : Voice) :
    (v.reflect m).accumulator &&& m = (v.reflect m).accumulator := by
  unfold Voice.reflect
  split <;> exact and_mask_mask _ _

/-! ### `Boundary` (R143) -/

/-- One check of `Boundary`: what each branch leaves. -/
theorem Voice.boundary_succ (m : Word) (n : Nat) (v : Voice) :
    v.boundary m (n + 1) =
      if v.lei then some v
      else if v.crossed then
        match v.loopMode with
        | .oneShot => some v.noteCompletion.setStop0
        | .uni => some (v.noteCompletion.wrap m)
        | .transWave => some (v.noteCompletion.wrap m).endTransWave
        | .bowTie =>
          if v.endPos.ult v.start then none else (v.noteCompletion.reflect m).boundary m n
      else some v := by
  conv => lhs; unfold Voice.boundary
  cases h : v.loopMode <;> simp [h]

/-- What `Boundary` leaves alone, and what it keeps: a property that every operation of `Boundary` keeps holds after it. -/
theorem Voice.boundary_keeps {m : Word} {P : Voice → Prop} (hNote : ∀ v, P v → P v.noteCompletion)
    (hStop : ∀ v, P v → P v.setStop0) (hWrap : ∀ v, P v → P (v.wrap m)) (hEnd : ∀ v, P v → P v.endTransWave)
    (hRefl : ∀ v, P v → P (v.reflect m)) :
    ∀ {n : Nat} {v w : Voice}, v.boundary m n = some w → P v → P w := by
  intro n
  induction n with
  | zero => intro v w h; simp [Voice.boundary] at h
  | succ n ih =>
    intro v w h hv
    rw [Voice.boundary_succ] at h
    split at h
    · simp only [Option.some.injEq] at h; exact h ▸ hv
    · split at h
      · split at h
        · simp only [Option.some.injEq] at h; exact h ▸ hStop _ (hNote _ hv)
        · simp only [Option.some.injEq] at h; exact h ▸ hWrap _ (hNote _ hv)
        · simp only [Option.some.injEq] at h; exact h ▸ hEnd _ (hWrap _ (hNote _ hv))
        · split at h
          · simp at h
          · exact ih h (hRefl _ (hNote _ hv))
      · simp only [Option.some.injEq] at h; exact h ▸ hv


theorem Voice.boundary_start {m : Word} {n : Nat} {v w : Voice} (h : v.boundary m n = some w) : w.start = v.start :=
  Voice.boundary_keeps (P := fun u => u.start = v.start) (by simp) (by simp) (by simp) (by simp) (by simp) h rfl

theorem Voice.boundary_endPos {m : Word} {n : Nat} {v w : Voice} (h : v.boundary m n = some w) : w.endPos = v.endPos :=
  Voice.boundary_keeps (P := fun u => u.endPos = v.endPos) (by simp) (by simp) (by simp) (by simp) (by simp) h rfl

theorem Voice.boundary_freqcount {m : Word} {n : Nat} {v w : Voice} (h : v.boundary m n = some w) : w.freqcount = v.freqcount :=
  Voice.boundary_keeps (P := fun u => u.freqcount = v.freqcount) (by simp) (by simp) (by simp) (by simp) (by simp) h rfl

theorem Voice.boundary_leftVolume {m : Word} {n : Nat} {v w : Voice} (h : v.boundary m n = some w) : w.leftVolume = v.leftVolume :=
  Voice.boundary_keeps (P := fun u => u.leftVolume = v.leftVolume) (by simp) (by simp) (by simp) (by simp) (by simp) h rfl

theorem Voice.boundary_leftRamp {m : Word} {n : Nat} {v w : Voice} (h : v.boundary m n = some w) : w.leftRamp = v.leftRamp :=
  Voice.boundary_keeps (P := fun u => u.leftRamp = v.leftRamp) (by simp) (by simp) (by simp) (by simp) (by simp) h rfl

theorem Voice.boundary_rightVolume {m : Word} {n : Nat} {v w : Voice} (h : v.boundary m n = some w) : w.rightVolume = v.rightVolume :=
  Voice.boundary_keeps (P := fun u => u.rightVolume = v.rightVolume) (by simp) (by simp) (by simp) (by simp) (by simp) h rfl

theorem Voice.boundary_rightRamp {m : Word} {n : Nat} {v w : Voice} (h : v.boundary m n = some w) : w.rightRamp = v.rightRamp :=
  Voice.boundary_keeps (P := fun u => u.rightRamp = v.rightRamp) (by simp) (by simp) (by simp) (by simp) (by simp) h rfl

theorem Voice.boundary_envelopeCount {m : Word} {n : Nat} {v w : Voice} (h : v.boundary m n = some w) : w.envelopeCount = v.envelopeCount :=
  Voice.boundary_keeps (P := fun u => u.envelopeCount = v.envelopeCount) (by simp) (by simp) (by simp) (by simp) (by simp) h rfl

theorem Voice.boundary_k1 {m : Word} {n : Nat} {v w : Voice} (h : v.boundary m n = some w) : w.k1 = v.k1 :=
  Voice.boundary_keeps (P := fun u => u.k1 = v.k1) (by simp) (by simp) (by simp) (by simp) (by simp) h rfl

theorem Voice.boundary_k1Ramp {m : Word} {n : Nat} {v w : Voice} (h : v.boundary m n = some w) : w.k1Ramp = v.k1Ramp :=
  Voice.boundary_keeps (P := fun u => u.k1Ramp = v.k1Ramp) (by simp) (by simp) (by simp) (by simp) (by simp) h rfl

theorem Voice.boundary_k2 {m : Word} {n : Nat} {v w : Voice} (h : v.boundary m n = some w) : w.k2 = v.k2 :=
  Voice.boundary_keeps (P := fun u => u.k2 = v.k2) (by simp) (by simp) (by simp) (by simp) (by simp) h rfl

theorem Voice.boundary_k2Ramp {m : Word} {n : Nat} {v w : Voice} (h : v.boundary m n = some w) : w.k2Ramp = v.k2Ramp :=
  Voice.boundary_keeps (P := fun u => u.k2Ramp = v.k2Ramp) (by simp) (by simp) (by simp) (by simp) (by simp) h rfl

theorem Voice.boundary_o1 {m : Word} {n : Nat} {v w : Voice} (h : v.boundary m n = some w) : w.o1 = v.o1 :=
  Voice.boundary_keeps (P := fun u => u.o1 = v.o1) (by simp) (by simp) (by simp) (by simp) (by simp) h rfl

theorem Voice.boundary_o2 {m : Word} {n : Nat} {v w : Voice} (h : v.boundary m n = some w) : w.o2 = v.o2 :=
  Voice.boundary_keeps (P := fun u => u.o2 = v.o2) (by simp) (by simp) (by simp) (by simp) (by simp) h rfl

theorem Voice.boundary_o3 {m : Word} {n : Nat} {v w : Voice} (h : v.boundary m n = some w) : w.o3 = v.o3 :=
  Voice.boundary_keeps (P := fun u => u.o3 = v.o3) (by simp) (by simp) (by simp) (by simp) (by simp) h rfl

theorem Voice.boundary_o4 {m : Word} {n : Nat} {v w : Voice} (h : v.boundary m n = some w) : w.o4 = v.o4 :=
  Voice.boundary_keeps (P := fun u => u.o4 = v.o4) (by simp) (by simp) (by simp) (by simp) (by simp) h rfl

theorem Voice.boundary_exbank {m : Word} {n : Nat} {v w : Voice} (h : v.boundary m n = some w) : w.exbank = v.exbank :=
  Voice.boundary_keeps (P := fun u => u.exbank = v.exbank) (by simp) (by simp) (by simp) (by simp) (by simp) h rfl

theorem Voice.boundary_filtcount {m : Word} {n : Nat} {v w : Voice} (h : v.boundary m n = some w) : w.filtcount = v.filtcount :=
  Voice.boundary_keeps (P := fun u => u.filtcount = v.filtcount) (by simp) (by simp) (by simp) (by simp) (by simp) h rfl

/-- A completion flag that is set stays set (R146). -/
theorem Voice.boundary_irq {m : Word} {n : Nat} {v w : Voice} (h : v.boundary m n = some w) (hv : v.irq = true) :
    w.irq = true :=
  Voice.boundary_keeps (P := fun u => u.irq = true) (by simp_all) (by simp) (by simp [Voice.irq]) (by simp) (by simp) h hv

/-- The position stays within the mask. -/
theorem Voice.boundary_masked {m : Word} {n : Nat} {v w : Voice} (h : v.boundary m n = some w)
    (hv : v.accumulator &&& m = v.accumulator) : w.accumulator &&& m = w.accumulator :=
  Voice.boundary_keeps (P := fun u => u.accumulator &&& m = u.accumulator) (by simp) (by simp)
    (fun v _ => Voice.wrap_masked m v) (by simp) (fun v _ => Voice.reflect_masked m v) h hv

/-! ### `Envelope` (R151 to R154) -/

@[simp] theorem Voice.tick_control (v : Voice) : v.tick.control = v.control := by simp [Voice.tick]
@[simp] theorem Voice.tick_start (v : Voice) : v.tick.start = v.start := by simp [Voice.tick]
@[simp] theorem Voice.tick_endPos (v : Voice) : v.tick.endPos = v.endPos := by simp [Voice.tick]
@[simp] theorem Voice.tick_accumulator (v : Voice) : v.tick.accumulator = v.accumulator := by simp [Voice.tick]
@[simp] theorem Voice.tick_freqcount (v : Voice) : v.tick.freqcount = v.freqcount := by simp [Voice.tick]
@[simp] theorem Voice.tick_leftRamp (v : Voice) : v.tick.leftRamp = v.leftRamp := by simp [Voice.tick]
@[simp] theorem Voice.tick_rightRamp (v : Voice) : v.tick.rightRamp = v.rightRamp := by simp [Voice.tick]
@[simp] theorem Voice.tick_k1Ramp (v : Voice) : v.tick.k1Ramp = v.k1Ramp := by simp [Voice.tick]
@[simp] theorem Voice.tick_k2Ramp (v : Voice) : v.tick.k2Ramp = v.k2Ramp := by simp [Voice.tick]
@[simp] theorem Voice.tick_o1 (v : Voice) : v.tick.o1 = v.o1 := by simp [Voice.tick]
@[simp] theorem Voice.tick_o2 (v : Voice) : v.tick.o2 = v.o2 := by simp [Voice.tick]
@[simp] theorem Voice.tick_o3 (v : Voice) : v.tick.o3 = v.o3 := by simp [Voice.tick]
@[simp] theorem Voice.tick_o4 (v : Voice) : v.tick.o4 = v.o4 := by simp [Voice.tick]
@[simp] theorem Voice.tick_exbank (v : Voice) : v.tick.exbank = v.exbank := by simp [Voice.tick]
@[simp] theorem Voice.tick_envelopeCount (v : Voice) : v.tick.envelopeCount = v.envelopeCount := by simp [Voice.tick]
@[simp] theorem Voice.envelope_control (v : Voice) : v.envelope.control = v.control := by
  unfold Voice.envelope; split
  · rfl
  · dsimp only; split <;> simp
@[simp] theorem Voice.envelope_start (v : Voice) : v.envelope.start = v.start := by
  unfold Voice.envelope; split
  · rfl
  · dsimp only; split <;> simp
@[simp] theorem Voice.envelope_endPos (v : Voice) : v.envelope.endPos = v.endPos := by
  unfold Voice.envelope; split
  · rfl
  · dsimp only; split <;> simp
@[simp] theorem Voice.envelope_accumulator (v : Voice) : v.envelope.accumulator = v.accumulator := by
  unfold Voice.envelope; split
  · rfl
  · dsimp only; split <;> simp
@[simp] theorem Voice.envelope_freqcount (v : Voice) : v.envelope.freqcount = v.freqcount := by
  unfold Voice.envelope; split
  · rfl
  · dsimp only; split <;> simp
@[simp] theorem Voice.envelope_leftRamp (v : Voice) : v.envelope.leftRamp = v.leftRamp := by
  unfold Voice.envelope; split
  · rfl
  · dsimp only; split <;> simp
@[simp] theorem Voice.envelope_rightRamp (v : Voice) : v.envelope.rightRamp = v.rightRamp := by
  unfold Voice.envelope; split
  · rfl
  · dsimp only; split <;> simp
@[simp] theorem Voice.envelope_k1Ramp (v : Voice) : v.envelope.k1Ramp = v.k1Ramp := by
  unfold Voice.envelope; split
  · rfl
  · dsimp only; split <;> simp
@[simp] theorem Voice.envelope_k2Ramp (v : Voice) : v.envelope.k2Ramp = v.k2Ramp := by
  unfold Voice.envelope; split
  · rfl
  · dsimp only; split <;> simp
@[simp] theorem Voice.envelope_o1 (v : Voice) : v.envelope.o1 = v.o1 := by
  unfold Voice.envelope; split
  · rfl
  · dsimp only; split <;> simp
@[simp] theorem Voice.envelope_o2 (v : Voice) : v.envelope.o2 = v.o2 := by
  unfold Voice.envelope; split
  · rfl
  · dsimp only; split <;> simp
@[simp] theorem Voice.envelope_o3 (v : Voice) : v.envelope.o3 = v.o3 := by
  unfold Voice.envelope; split
  · rfl
  · dsimp only; split <;> simp
@[simp] theorem Voice.envelope_o4 (v : Voice) : v.envelope.o4 = v.o4 := by
  unfold Voice.envelope; split
  · rfl
  · dsimp only; split <;> simp
@[simp] theorem Voice.envelope_exbank (v : Voice) : v.envelope.exbank = v.exbank := by
  unfold Voice.envelope; split
  · rfl
  · dsimp only; split <;> simp
@[simp] theorem Voice.envelope_irq (v : Voice) : v.envelope.irq = v.irq := by
  simp only [Voice.irq, Voice.envelope_control]
@[simp] theorem Voice.envelope_stopped (v : Voice) : v.envelope.stopped = v.stopped := by
  simp only [Voice.stopped, Voice.stop0, Voice.stop1, Voice.envelope_control]
@[simp] theorem Voice.envelope_stop0 (v : Voice) : v.envelope.stop0 = v.stop0 := by
  simp only [Voice.stop0, Voice.envelope_control]
@[simp] theorem Voice.envelope_stop1 (v : Voice) : v.envelope.stop1 = v.stop1 := by
  simp only [Voice.stop1, Voice.envelope_control]
@[simp] theorem Voice.envelope_lei (v : Voice) : v.envelope.lei = v.lei := by
  simp only [Voice.lei, Voice.envelope_control]
@[simp] theorem Voice.envelope_loopMode (v : Voice) : v.envelope.loopMode = v.loopMode := by
  simp only [Voice.loopMode, Voice.loop, Voice.envelope_control]
@[simp] theorem Voice.envelope_dir (v : Voice) : v.envelope.dir = v.dir := by
  simp only [Voice.dir, Voice.envelope_control]
@[simp] theorem Voice.envelope_irqe (v : Voice) : v.envelope.irqe = v.irqe := by
  simp only [Voice.irqe, Voice.envelope_control]

/-- The ramp arithmetic over the integers (R153). -/
theorem toNat_rampValue (x : Half) (ramp : Byte) :
    ((rampValue x ramp).toNat : Int) = if ramp = 0#8 then (x.toNat : Int) else clamp (x.toNat + ramp.toInt) 0 65535 := by
  unfold rampValue
  split
  · rfl
  · have h0 : 0 ≤ clamp (x.toNat + ramp.toInt) 0 65535 := by unfold clamp; split <;> (try split) <;> omega
    have h1 : clamp (x.toNat + ramp.toInt) 0 65535 ≤ 65535 := by unfold clamp; split <;> (try split) <;> omega
    rw [BitVec.toNat_ofInt]
    have : (((2 : Nat) ^ 16 : Nat) : Int) = 65536 := by norm_num
    rw [this, Int.emod_eq_of_lt h0 (by omega), Int.toNat_of_nonneg h0]

/-! ### `Advance` (R140) -/

/-- `Advance` answers a voice exactly when `Boundary` does, and then it is the envelope's. -/
theorem Voice.advance_eq_some {m : Word} {v w : Voice} :
    v.advance m = some w ↔
      ∃ u, (v.stepPosition m).boundary m (v.stepPosition m).chainRounds = some u ∧ w = u.envelope := by
  simp only [Voice.advance, Option.map_eq_some_iff]
  constructor
  · rintro ⟨u, hu, rfl⟩; exact ⟨u, hu, rfl⟩
  · rintro ⟨u, hu, rfl⟩; exact ⟨u, hu, rfl⟩

theorem Voice.advance_start {m : Word} {v w : Voice} (h : v.advance m = some w) : w.start = v.start := by
  obtain ⟨u, hu, rfl⟩ := Voice.advance_eq_some.1 h
  simp [Voice.boundary_start hu]

theorem Voice.advance_endPos {m : Word} {v w : Voice} (h : v.advance m = some w) : w.endPos = v.endPos := by
  obtain ⟨u, hu, rfl⟩ := Voice.advance_eq_some.1 h
  simp [Voice.boundary_endPos hu]

theorem Voice.advance_freqcount {m : Word} {v w : Voice} (h : v.advance m = some w) : w.freqcount = v.freqcount := by
  obtain ⟨u, hu, rfl⟩ := Voice.advance_eq_some.1 h
  simp [Voice.boundary_freqcount hu]

theorem Voice.advance_leftRamp {m : Word} {v w : Voice} (h : v.advance m = some w) : w.leftRamp = v.leftRamp := by
  obtain ⟨u, hu, rfl⟩ := Voice.advance_eq_some.1 h
  simp [Voice.boundary_leftRamp hu]

theorem Voice.advance_rightRamp {m : Word} {v w : Voice} (h : v.advance m = some w) : w.rightRamp = v.rightRamp := by
  obtain ⟨u, hu, rfl⟩ := Voice.advance_eq_some.1 h
  simp [Voice.boundary_rightRamp hu]

theorem Voice.advance_k1Ramp {m : Word} {v w : Voice} (h : v.advance m = some w) : w.k1Ramp = v.k1Ramp := by
  obtain ⟨u, hu, rfl⟩ := Voice.advance_eq_some.1 h
  simp [Voice.boundary_k1Ramp hu]

theorem Voice.advance_k2Ramp {m : Word} {v w : Voice} (h : v.advance m = some w) : w.k2Ramp = v.k2Ramp := by
  obtain ⟨u, hu, rfl⟩ := Voice.advance_eq_some.1 h
  simp [Voice.boundary_k2Ramp hu]

theorem Voice.advance_o1 {m : Word} {v w : Voice} (h : v.advance m = some w) : w.o1 = v.o1 := by
  obtain ⟨u, hu, rfl⟩ := Voice.advance_eq_some.1 h
  simp [Voice.boundary_o1 hu]

theorem Voice.advance_o2 {m : Word} {v w : Voice} (h : v.advance m = some w) : w.o2 = v.o2 := by
  obtain ⟨u, hu, rfl⟩ := Voice.advance_eq_some.1 h
  simp [Voice.boundary_o2 hu]

theorem Voice.advance_o3 {m : Word} {v w : Voice} (h : v.advance m = some w) : w.o3 = v.o3 := by
  obtain ⟨u, hu, rfl⟩ := Voice.advance_eq_some.1 h
  simp [Voice.boundary_o3 hu]

theorem Voice.advance_o4 {m : Word} {v w : Voice} (h : v.advance m = some w) : w.o4 = v.o4 := by
  obtain ⟨u, hu, rfl⟩ := Voice.advance_eq_some.1 h
  simp [Voice.boundary_o4 hu]

theorem Voice.advance_exbank {m : Word} {v w : Voice} (h : v.advance m = some w) : w.exbank = v.exbank := by
  obtain ⟨u, hu, rfl⟩ := Voice.advance_eq_some.1 h
  simp [Voice.boundary_exbank hu]

theorem Voice.advance_irq {m : Word} {v w : Voice} (h : v.advance m = some w) (hv : v.irq = true) : w.irq = true := by
  obtain ⟨u, hu, rfl⟩ := Voice.advance_eq_some.1 h
  simpa using Voice.boundary_irq hu (by simpa using hv)

theorem Voice.advance_masked {m : Word} {v w : Voice} (h : v.advance m = some w) :
    w.accumulator &&& m = w.accumulator := by
  obtain ⟨u, hu, rfl⟩ := Voice.advance_eq_some.1 h
  simpa using Voice.boundary_masked hu (Voice.stepPosition_masked m v)

end Sys2Proof.Machine
end

