-- ==== Sys2Proof/Laws/Frame.lean ====
section
/-! SUPPORT. What the service of a voice and a FRAME can do (spec/44_mixer_frame.md R210 to R212), said once. -/

namespace Sys2Proof.Machine

/-! ### The filter and the sound of a voice write the taps only -/

theorem Voice.filtered_voice (k : KShift) (v : Voice) (x : Int) (d : Nat) :
    ∃ w1 w2 w3 w4, (v.filtered k x d).voice = v.setTaps w1 w2 w3 w4 := by
  unfold Voice.filtered
  dsimp only
  split <;> exact ⟨_, _, _, _, rfl⟩

/-- The sound of a voice leaves the voice, or the voice with four new taps. -/
theorem Voice.sound_voice (p : Params) (mem : Memory) (v : Voice) (d : Nat) :
    (v.sound p mem d).voice = v ∨ ∃ w1 w2 w3 w4, (v.sound p mem d).voice = v.setTaps w1 w2 w3 w4 := by
  unfold Voice.sound
  cases takeSample p mem v d with
  | none => exact .inl rfl
  | some x => exact .inr (Voice.filtered_voice _ _ _ _)

/-- A register that is no tap is not written by the sound of the voice. -/
theorem Voice.sound_keeps {α : Type} (f : Voice → α) (hf : ∀ v w1 w2 w3 w4, f (Voice.setTaps v w1 w2 w3 w4) = f v)
    (p : Params) (mem : Memory) (v : Voice) (d : Nat) : f (v.sound p mem d).voice = f v := by
  rcases Voice.sound_voice p mem v d with h | ⟨w1, w2, w3, w4, h⟩
  · rw [h]
  · rw [h, hf]

/-- The sound of a voice on a mapped region: fetch, interpolation and filter at the position and with the volumes as they stand (R180,
R212, R213). -/
theorem Voice.sound_fetched {p : Params} {mem : Memory} {v : Voice} {d : Nat} {f : Fetched}
    (h : fetch p mem v v.accumulator d = some f) :
    v.sound p mem d =
      ⟨(v.filtered p.kShift (interpolate p.interpMode f.s1 f.s2 v.accumulator) f.draws).voice,
        volScale p.volLaw (v.filtered p.kShift (interpolate p.interpMode f.s1 f.s2 v.accumulator) f.draws).sample v.leftVolume,
        volScale p.volLaw (v.filtered p.kShift (interpolate p.interpMode f.s1 f.s2 v.accumulator) f.draws).sample v.rightVolume,
        (v.filtered p.kShift (interpolate p.interpMode f.s1 f.s2 v.accumulator) f.draws).draws⟩ := by
  simp [Voice.sound, takeSample, h]

/-- An unmapped region: silence, the taps and the draws untouched (R171). -/
theorem Voice.sound_unmapped (p : Params) (mem : Memory) (v : Voice) (d : Nat) (h : Memory.region mem v.bs = none) :
    v.sound p mem d = ⟨v, 0, 0, d⟩ := by
  simp [Voice.sound, takeSample, fetch, h]

/-! ### The service of one voice (R212) -/

@[simp] theorem Voice.degenerateCheck_start (v : Voice) : v.degenerateCheck.start = v.start := by
  unfold Voice.degenerateCheck; split <;> rfl
@[simp] theorem Voice.degenerateCheck_endPos (v : Voice) : v.degenerateCheck.endPos = v.endPos := by
  unfold Voice.degenerateCheck; split <;> rfl
@[simp] theorem Voice.degenerateCheck_accumulator (v : Voice) : v.degenerateCheck.accumulator = v.accumulator := by
  unfold Voice.degenerateCheck; split <;> rfl
@[simp] theorem Voice.degenerateCheck_irq (v : Voice) : v.degenerateCheck.irq = v.irq := by
  unfold Voice.degenerateCheck; split <;> simp

theorem Voice.degenerateCheck_of_eq {v : Voice} (h : v.start = v.endPos) : v.degenerateCheck = v.setStop0 := by
  simp [Voice.degenerateCheck, h]

theorem Voice.degenerateCheck_of_ne {v : Voice} (h : v.start ≠ v.endPos) : v.degenerateCheck = v := by
  simp [Voice.degenerateCheck, h]

/-- A voice that is stopped after the degenerate check adds nothing and is not advanced (R141, R211). -/
theorem Voice.service_stopped {p : Params} {mem : Memory} {v : Voice} {d : Nat} (h : v.degenerateCheck.stopped = true) :
    v.service p mem d = some ⟨v.degenerateCheck, 0, 0, d⟩ := by
  simp [Voice.service, h]

/-- A running voice sounds and then advances (R212). -/
theorem Voice.service_running {p : Params} {mem : Memory} {v : Voice} {d : Nat} (h : v.degenerateCheck.stopped = false) :
    v.service p mem d =
      ((v.degenerateCheck.sound p mem d).voice.advance (posMask p)).map fun w =>
        ⟨w, (v.degenerateCheck.sound p mem d).left, (v.degenerateCheck.sound p mem d).right,
          (v.degenerateCheck.sound p mem d).draws⟩ := by
  simp [Voice.service, h]

/-- What the service of a voice leaves: the stopped voice, or what `Advance` leaves of the voice with its new taps. -/
theorem Voice.service_cases {p : Params} {mem : Memory} {v : Voice} {d : Nat} {r : Serviced}
    (h : v.service p mem d = some r) :
    (v.degenerateCheck.stopped = true ∧ r = ⟨v.degenerateCheck, 0, 0, d⟩) ∨
      (v.degenerateCheck.stopped = false ∧ v.degenerateCheck = v ∧ (v.sound p mem d).voice.advance (posMask p) = some r.voice ∧
        r.left = (v.sound p mem d).left ∧ r.right = (v.sound p mem d).right ∧ r.draws = (v.sound p mem d).draws) := by
  by_cases hs : v.degenerateCheck.stopped = true
  · rw [Voice.service_stopped hs] at h
    exact .inl ⟨hs, by simpa using h.symm⟩
  · simp only [Bool.not_eq_true] at hs
    have e : v.degenerateCheck = v := by
      by_cases he : v.start = v.endPos
      · rw [Voice.degenerateCheck_of_eq he] at hs; simp at hs
      · exact Voice.degenerateCheck_of_ne he
    rw [Voice.service_running hs, e, Option.map_eq_some_iff] at h
    obtain ⟨w, hw, rfl⟩ := h
    exact .inr ⟨hs, e, hw, rfl, rfl, rfl⟩

/-- A register that the degenerate check, the filter and `Advance` leave alone keeps its value. -/
theorem Voice.service_keeps {α : Type} (f : Voice → α) (hd : ∀ v, f (Voice.degenerateCheck v) = f v)
    (ht : ∀ v w1 w2 w3 w4, f (Voice.setTaps v w1 w2 w3 w4) = f v)
    (ha : ∀ m v w, Voice.advance m v = some w → f w = f v) {p : Params} {mem : Memory} {v : Voice} {d : Nat}
    {r : Serviced} (h : v.service p mem d = some r) : f r.voice = f v := by
  rcases Voice.service_cases h with ⟨-, rfl⟩ | ⟨-, -, hadv, -⟩
  · exact hd v
  · rw [ha _ _ _ hadv, Voice.sound_keeps f ht]

/-- The bounds of a voice are never written (R24). -/
theorem Voice.service_start {p : Params} {mem : Memory} {v : Voice} {d : Nat} {r : Serviced}
    (h : v.service p mem d = some r) : r.voice.start = v.start :=
  Voice.service_keeps (fun v => v.start) (by simp) (by simp) (fun _ _ _ => Voice.advance_start) h

theorem Voice.service_endPos {p : Params} {mem : Memory} {v : Voice} {d : Nat} {r : Serviced}
    (h : v.service p mem d = some r) : r.voice.endPos = v.endPos :=
  Voice.service_keeps (fun v => v.endPos) (by simp) (by simp) (fun _ _ _ => Voice.advance_endPos) h

/-- A completion flag that is set stays set until the scan (R146). -/
theorem Voice.service_irq {p : Params} {mem : Memory} {v : Voice} {d : Nat} {r : Serviced}
    (h : v.service p mem d = some r) (hv : v.irq = true) : r.voice.irq = true := by
  rcases Voice.service_cases h with ⟨-, rfl⟩ | ⟨-, -, hadv, -⟩
  · simpa using hv
  · exact Voice.advance_irq hadv (by rw [Voice.sound_keeps Voice.irq (fun _ _ _ _ _ => rfl)]; exact hv)

theorem Voice.service_masked {p : Params} {mem : Memory} {v : Voice} {d : Nat} {r : Serviced}
    (h : v.service p mem d = some r) (hv : v.accumulator &&& posMask p = v.accumulator) :
    r.voice.accumulator &&& posMask p = r.voice.accumulator := by
  rcases Voice.service_cases h with ⟨-, rfl⟩ | ⟨-, -, hadv, -⟩
  · simpa using hv
  · exact Voice.advance_masked hadv

/-! ### The voice scan (R210) -/

theorem Mix.service_eq_some {p : Params} {mem : Memory} {x y : Mix} {i : VoiceIx} :
    x.service p mem i = some y ↔
      ∃ r, (x.chip.voice i).service p mem x.draws = some r ∧
        y = ⟨x.chip.setVoice i r.voice, x.left + r.left, x.right + r.right, r.draws⟩ := by
  simp only [Mix.service, Option.map_eq_some_iff]
  constructor
  · rintro ⟨r, hr, rfl⟩; exact ⟨r, hr, rfl⟩
  · rintro ⟨r, hr, rfl⟩; exact ⟨r, hr, rfl⟩

theorem Mix.serviceBelow_succ {p : Params} {mem : Memory} {n : Nat} {x z : Mix} :
    Mix.serviceBelow p mem (n + 1) x = some z ↔
      ∃ y, Mix.serviceBelow p mem n x = some y ∧ y.service p mem (BitVec.ofNat 5 n) = some z := by
  simp only [Mix.serviceBelow, Option.bind_eq_some_iff]

/-- The scan changes no global register, no voice at or above its limit, and each voice below it by its own service. -/
theorem Mix.serviceBelow_spec {p : Params} {mem : Memory} {n : Nat} {x y : Mix} (hn : n ≤ 32)
    (h : Mix.serviceBelow p mem n x = some y) :
    Chip.SameGlobals x.chip y.chip ∧ (∀ i : VoiceIx, n ≤ i.toNat → y.chip.voice i = x.chip.voice i) ∧
      ∀ i : VoiceIx, i.toNat < n → ∃ d r, (x.chip.voice i).service p mem d = some r ∧ y.chip.voice i = r.voice := by
  induction n generalizing y with
  | zero =>
    simp only [Mix.serviceBelow, Option.some.injEq] at h
    subst h
    exact ⟨⟨rfl, rfl, rfl, rfl, rfl⟩, fun _ _ => rfl, fun i hi => absurd hi (by omega)⟩
  | succ n ih =>
    obtain ⟨z, hz, hs⟩ := Mix.serviceBelow_succ.1 h
    obtain ⟨r, hr, rfl⟩ := Mix.service_eq_some.1 hs
    obtain ⟨hg, hab, hbe⟩ := ih (by omega) hz
    refine ⟨hg, fun i hi => ?_, fun i hi => ?_⟩
    · simp only [Chip.voice_setVoice, ofNat5_ne (show n < 32 by omega) (show n ≠ i.toNat by omega), if_false]
      exact hab i (by omega)
    · by_cases e : i.toNat = n
      · have ei : i = BitVec.ofNat 5 n := by rw [← e]; simp
        refine ⟨z.draws, r, ?_, by simp [ei]⟩
        rw [← hab i (by omega), ei]; exact hr
      · obtain ⟨d, q, hq, hv⟩ := hbe i (by omega)
        refine ⟨d, q, hq, ?_⟩
        simp only [Chip.voice_setVoice, ofNat5_ne (show n < 32 by omega) (fun h => e h.symm), if_false]
        exact hv

/-- A FRAME is refused, or its voices are serviced and the machine is finished. -/
theorem execFrame_cases (s : State) :
    (Mix.serviceBelow s.params s.memory s.chip.servicedCount s.startMix = none ∧ execFrame s = .refused .bowTieChain) ∨
      ∃ x, Mix.serviceBelow s.params s.memory s.chip.servicedCount s.startMix = some x ∧
        execFrame s = .next (s.finishFrame x) := by
  unfold execFrame
  cases Mix.serviceBelow s.params s.memory s.chip.servicedCount s.startMix with
  | none => exact .inl ⟨rfl, rfl⟩
  | some x => exact .inr ⟨x, rfl, rfl⟩

theorem execFrame_next {s t : State} (h : execFrame s = .next t) :
    ∃ x, Mix.serviceBelow s.params s.memory s.chip.servicedCount s.startMix = some x ∧ t = s.finishFrame x := by
  rcases execFrame_cases s with ⟨-, e⟩ | ⟨x, hx, e⟩
  · rw [e] at h; cases h
  · rw [e] at h; cases h; exact ⟨x, hx, rfl⟩

end Sys2Proof.Machine
end

