-- ==== Sys2Proof/Laws/Chain.lean ====
section
/-! SUPPORT. The arithmetic of positions, when a boundary check finds a crossing, and when `Advance`, `Service` and the voices of a FRAME
have a result (spec/41_voice_state_machine.md R142 to R150). -/

namespace Sys2Proof.Machine

/-- Masking a position is a remainder (R142). -/
theorem toNat_and_accumMask (a : AccumWidth) (x : Word) :
    (x &&& accumMask a).toNat = x.toNat % ((accumMask a).toNat + 1) := by
  have := x.isLt
  cases a
  · show (x &&& 0xFFFFFFFF#32).toNat = x.toNat % (0xFFFFFFFF + 1)
    rw [BitVec.toNat_and]
    exact Nat.and_two_pow_sub_one_eq_mod x.toNat 32
  · show (x &&& 0x7FFFFFFF#32).toNat = x.toNat % (0x7FFFFFFF + 1)
    rw [BitVec.toNat_and]
    exact Nat.and_two_pow_sub_one_eq_mod x.toNat 31

/-- The two values of `ACCUM_MASK` (R6). -/
theorem accumMask_cases (a : AccumWidth) : (accumMask a).toNat = 4294967295 ∨ (accumMask a).toNat = 2147483647 := by
  cases a <;> simp [accumMask]

/-- A masked position is within `ACCUM_MASK` (R39). -/
theorem toNat_le_of_masked {a : AccumWidth} {x : Word} (h : x &&& accumMask a = x) : x.toNat ≤ (accumMask a).toNat := by
  have := toNat_and_accumMask a x
  rw [h] at this
  rcases accumMask_cases a with e | e <;> rw [e] at this ⊢ <;> omega

/-- Subtraction modulo 2^32 (R142). -/
theorem toNat_word_sub (x y : Word) : (x - y).toNat = (x.toNat + 4294967296 - y.toNat) % 4294967296 := by
  rw [BitVec.toNat_sub]; have := x.isLt; have := y.isLt; omega

/-- Addition modulo 2^32 (R142). -/
theorem toNat_word_add (x y : Word) : (x + y).toNat = (x.toNat + y.toNat) % 4294967296 := by
  rw [BitVec.toNat_add]

/-- Where `Reflect` puts a forward voice (R149). -/
theorem Voice.reflect_forward (a : AccumWidth) (v : Voice) (h : v.dir = false) :
    ((v.reflect (accumMask a)).accumulator).toNat =
      (8589934592 + 2 * v.endPos.toNat - v.accumulator.toNat) % 4294967296 % ((accumMask a).toNat+1) := by
  have := v.accumulator.isLt
  have := v.endPos.isLt
  simp only [Voice.reflect, h, Bool.false_eq_true, if_false]
  show ((_ : Word) &&& _).toNat = _
  rw [toNat_and_accumMask, toNat_word_sub, toNat_word_sub]
  congr 1; omega

/-- Where `Reflect` puts a reverse voice (R149). -/
theorem Voice.reflect_reverse (a : AccumWidth) (v : Voice) (h : v.dir = true) :
    ((v.reflect (accumMask a)).accumulator).toNat =
      (4294967296 + 2 * v.start.toNat - v.accumulator.toNat) % 4294967296 % ((accumMask a).toNat+1) := by
  have := v.accumulator.isLt
  have := v.start.isLt
  simp only [Voice.reflect, h, if_true]
  show ((_ : Word) &&& _).toNat = _
  rw [toNat_and_accumMask, toNat_word_add, toNat_word_sub]
  congr 1; omega

/-- The forward check (R144). -/
theorem Voice.crossed_forward {v : Voice} (h : v.dir = false) : v.crossed = decide (v.endPos.toNat < v.accumulator.toNat) := by
  simp [Voice.crossed, h, BitVec.ult]

/-- The reverse check (R145). -/
theorem Voice.crossed_reverse {v : Voice} (h : v.dir = true) : v.crossed = decide (v.accumulator.toNat < v.start.toNat) := by
  simp [Voice.crossed, h, BitVec.ult]

/-- The check of either direction (R144, R145). -/
theorem Voice.crossed_iff_Crosses {v : Voice} : v.crossed = true ↔ v.Crosses := by
  unfold Voice.Crosses
  cases h : v.dir <;> simp [Voice.crossed_forward, Voice.crossed_reverse, h]

/-- With `start < end` a bow-tie chain ends within `1 + floor(d / (end - start))` reflections and one check more (R150). -/
theorem Voice.boundary_total (a : AccumWidth) : ∀ (n : Nat) (v : Voice), v.lei = false → v.loopMode = .bowTie →
    v.start.toNat < v.endPos.toNat → v.accumulator.toNat ≤ (accumMask a).toNat →
    v.overshoot / (v.endPos.toNat - v.start.toNat) + 2 ≤ n → ∃ w, v.boundary (accumMask a) n = some w := by
  intro n
  induction n with
  | zero => intro v _ _ _ _ h; exact absurd h (by simp)
  | succ n ih =>
    intro v hl hb hlt hm ho
    rw [Voice.boundary_succ]
    simp only [hl, hb, Bool.false_eq_true, if_false]
    have hult : v.endPos.ult v.start = false := by simp [BitVec.ult]; omega
    simp only [hult, Bool.false_eq_true, if_false]
    split
    · next hc =>
      have hc := Voice.crossed_iff_Crosses.1 hc
      set u := v.noteCompletion with hu
      have e1 : u.accumulator = v.accumulator := by simp [hu]
      have e2 : u.start = v.start := by simp [hu]
      have e3 : u.endPos = v.endPos := by simp [hu]
      have e4 : u.dir = v.dir := by simp [hu]
      -- either the reflected voice is not crossed, or its overshoot is smaller by L
      set w := u.reflect (accumMask a) with hw
      have w1 : w.start = v.start := by simp [hw, e2]
      have w2 : w.endPos = v.endPos := by simp [hw, e3]
      have w3 : w.lei = false := by simp [hw, hu, hl]
      have w4 : w.loopMode = .bowTie := by simp [hw, hu, hb]
      have w5 : w.dir = !v.dir := by simp [hw, e4]
      have wm : w.accumulator.toNat ≤ (accumMask a).toNat := by
        cases hd : v.dir
        · rw [hw, Voice.reflect_forward a u (by rw [e4, hd])]
          exact Nat.lt_succ_iff.1 (Nat.mod_lt _ (Nat.succ_pos _))
        · rw [hw, Voice.reflect_reverse a u (by rw [e4, hd])]
          exact Nat.lt_succ_iff.1 (Nat.mod_lt _ (Nat.succ_pos _))
      by_cases hcw : w.crossed = true
      · refine ih w w3 w4 (by rw [w1, w2]; exact hlt) wm ?_
        rw [w1, w2]
        have key : w.overshoot + (v.endPos.toNat - v.start.toNat) = v.overshoot := by
          have b1 := v.endPos.isLt
          have b2 := v.start.isLt
          have b3 := v.accumulator.isLt
          cases hd : v.dir
          · have ha := Voice.reflect_forward a u (by rw [e4, hd])
            rw [← hw, e1, e3] at ha
            rw [Voice.crossed_iff_Crosses] at hcw
            unfold Voice.Crosses at hcw hc
            rw [w5, hd] at hcw; rw [hd] at hc
            simp only [Bool.not_false, Bool.true_eq_false, false_and, true_and, false_or, or_false, Bool.false_eq_true,
              w1, w2] at hcw hc
            unfold Voice.overshoot
            rw [w5, hd, w1, w2]
            simp only [Bool.not_false, if_true, Bool.false_eq_true, if_false]
            rcases accumMask_cases a with e | e <;> rw [e] at ha hm <;> omega
          · have ha := Voice.reflect_reverse a u (by rw [e4, hd])
            rw [← hw, e1, e2] at ha
            rw [Voice.crossed_iff_Crosses] at hcw
            unfold Voice.Crosses at hcw hc
            rw [w5, hd] at hcw; rw [hd] at hc
            simp only [Bool.not_true, Bool.true_eq_false, false_and, true_and, false_or, or_false, Bool.false_eq_true,
              w1, w2] at hcw hc
            unfold Voice.overshoot
            rw [w5, hd, w1, w2]
            simp only [Bool.not_true, if_true, Bool.false_eq_true, if_false]
            rcases accumMask_cases a with e | e <;> rw [e] at ha hm wm <;> omega
        have hpos : 0 < w.overshoot := by
          rw [Voice.crossed_iff_Crosses] at hcw
          unfold Voice.Crosses at hcw
          unfold Voice.overshoot
          rcases hcw with ⟨h1, h2⟩ | ⟨h1, h2⟩ <;> rw [h1] <;> simp <;> omega
        have hL : 0 < v.endPos.toNat - v.start.toNat := by omega
        have : w.overshoot / (v.endPos.toNat - v.start.toNat) + 1 = v.overshoot / (v.endPos.toNat - v.start.toNat) := by
          rw [← key, Nat.add_div_right _ hL]
        omega
      · simp only [Bool.not_eq_true] at hcw
        cases n with
        | zero => generalize v.overshoot / _ = q at ho; omega
        | succ n => exact ⟨w, by rw [Voice.boundary_succ]; simp [hcw]⟩
    · exact ⟨v, rfl⟩


/-- `Advance` of a running voice whose bounds differ has a result except in the configuration the spec refuses (R143, R150). -/
theorem Voice.advance_total (a : AccumWidth) (v : Voice) (hne : v.start ≠ v.endPos) (hs : v.stopped = false) :
    (¬ v.NoMeaning (accumMask a) → ∃ w, v.advance (accumMask a) = some w) ∧
      (v.NoMeaning (accumMask a) → v.advance (accumMask a) = none) := by
  set u := v.stepPosition (accumMask a) with hu
  have ur : ∃ n, u.chainRounds = n + 2 := ⟨_, rfl⟩
  obtain ⟨n, hn⟩ := ur
  have adv : v.advance (accumMask a) = (u.boundary (accumMask a) u.chainRounds).map Voice.envelope := rfl
  constructor
  · intro hno
    suffices ∃ w, u.boundary (accumMask a) u.chainRounds = some w by
      obtain ⟨w, hw⟩ := this
      exact ⟨_, by rw [adv, hw]; rfl⟩
    by_cases hl : u.lei = true
    · rw [hn, Voice.boundary_succ]; simp [hl]
    simp only [Bool.not_eq_true] at hl
    by_cases hb : u.loopMode = .bowTie
    · by_cases hlt : u.start.toNat < u.endPos.toNat
      · exact Voice.boundary_total a _ u hl hb hlt (toNat_le_of_masked (Voice.stepPosition_masked _ v)) (le_refl _)
      · have : u.crossed = false := by
          by_contra hc
          simp only [Bool.not_eq_false] at hc
          apply hno
          refine ⟨hs, by simpa [hu] using hl, by simpa [hu] using hb, ?_, hc⟩
          have h1 : u.start = v.start := by simp [hu]
          have h2 : u.endPos = v.endPos := by simp [hu]
          rw [h1, h2] at hlt
          have : v.start.toNat ≠ v.endPos.toNat := fun h => hne (BitVec.eq_of_toNat_eq h)
          omega
        rw [hn, Voice.boundary_succ]; simp [this, hl]
    · rw [hn, Voice.boundary_succ]
      split
      · exact ⟨_, rfl⟩
      · split
        · cases h : u.loopMode <;> simp [h] at hb ⊢
        · exact ⟨_, rfl⟩
  · rintro ⟨-, h1, h2, h3, h4⟩
    rw [adv, hn, Voice.boundary_succ]
    have : u.endPos.ult u.start = true := by simp [BitVec.ult, hu]; exact h3
    rw [this]
    have e1 : u.lei = false := by simpa [hu] using h1
    have e2 : u.loopMode = .bowTie := by simpa [hu] using h2
    have e3 : u.crossed = true := h4
    simp [e1, e2, e3]

/-- The refused configuration depends on `control`, the bounds, the position and the pitch alone (R150). -/
theorem Voice.noMeaning_congr {m : Word} {v w : Voice} (h1 : w.control = v.control) (h2 : w.start = v.start)
    (h3 : w.endPos = v.endPos) (h4 : w.accumulator = v.accumulator) (h5 : w.freqcount = v.freqcount) :
    w.NoMeaning m ↔ v.NoMeaning m := by
  have hdir : w.dir = v.dir := by simp [Voice.dir, h1]
  have hacc : (w.stepPosition m).accumulator = (v.stepPosition m).accumulator := by
    unfold Voice.stepPosition; rw [hdir]; split <;> simp [h4, h5]
  have hc : (w.stepPosition m).crossed = (v.stepPosition m).crossed := by
    unfold Voice.crossed; simp [hdir, hacc, h2, h3]
  have e1 : w.stopped = v.stopped := by simp [Voice.stopped, Voice.stop0, Voice.stop1, h1]
  have e2 : w.lei = v.lei := by simp [Voice.lei, h1]
  have e3 : w.loopMode = v.loopMode := Voice.loopMode_congr (by rw [h1]) (by rw [h1])
  unfold Voice.NoMeaning
  rw [hc, e1, e2, e3, h2, h3]

/-- `Service` has a result except in the configuration the spec refuses (R212, R150). -/
theorem Voice.service_total (p : Params) (mem : Memory) (v : Voice) (d : Nat) :
    (¬ v.NoMeaning (posMask p) → ∃ w, v.service p mem d = some w) ∧
      (v.NoMeaning (posMask p) → v.service p mem d = none) := by
  by_cases he : v.start = v.endPos
  · have : ¬ v.NoMeaning (posMask p) := fun h => by have := h.2.2.2.1; rw [he] at this; omega
    exact ⟨fun _ => ⟨_, Voice.service_stopped (by rw [Voice.degenerateCheck_of_eq he]; simp)⟩,
      fun h => absurd h this⟩
  have hd := Voice.degenerateCheck_of_ne he
  by_cases hs : v.stopped = true
  · exact ⟨fun _ => ⟨_, Voice.service_stopped (by rw [hd]; exact hs)⟩,
      fun h => by have := h.1; rw [hs] at this; cases this⟩
  simp only [Bool.not_eq_true] at hs
  rw [Voice.service_running (by rw [hd]; exact hs), hd]
  have key : (v.sound p mem d).voice.NoMeaning (posMask p) ↔ v.NoMeaning (posMask p) :=
    Voice.noMeaning_congr
      (Voice.sound_keeps (fun v => v.control) (by simp) _ _ _ _)
      (Voice.sound_keeps (fun v => v.start) (by simp) _ _ _ _)
      (Voice.sound_keeps (fun v => v.endPos) (by simp) _ _ _ _)
      (Voice.sound_keeps (fun v => v.accumulator) (by simp) _ _ _ _)
      (Voice.sound_keeps (fun v => v.freqcount) (by simp) _ _ _ _)
  have hne' : (v.sound p mem d).voice.start ≠ (v.sound p mem d).voice.endPos := by
    rw [Voice.sound_keeps (fun v => v.start) (by simp), Voice.sound_keeps (fun v => v.endPos) (by simp)]
    exact he
  have hs' : (v.sound p mem d).voice.stopped = false := by
    rw [Voice.sound_keeps (fun v => v.stopped) (by simp [Voice.stopped, Voice.stop0, Voice.stop1])]; exact hs
  obtain ⟨h1, h2⟩ := Voice.advance_total p.accumWidth _ hne' hs'
  constructor
  · intro h
    obtain ⟨w, hw⟩ := h1 (fun h' => h (key.1 h'))
    exact ⟨_, by show Option.map _ (Voice.advance (accumMask p.accumWidth) _) = _; rw [hw]; rfl⟩
  · intro h
    show Option.map _ (Voice.advance (accumMask p.accumWidth) _) = _
    rw [h2 (key.2 h)]; rfl

/-- The voices of a FRAME are all serviced unless one is in the refused configuration (R210). -/
theorem Mix.serviceBelow_total {p : Params} {mem : Memory} (x : Mix) :
    ∀ n ≤ 32, (∀ i : VoiceIx, i.toNat < n → ¬ (x.chip.voice i).NoMeaning (posMask p)) →
      ∃ y, Mix.serviceBelow p mem n x = some y := by
  intro n
  induction n with
  | zero => intro _ _; exact ⟨x, rfl⟩
  | succ n ih =>
    intro hn h
    obtain ⟨y, hy⟩ := ih (by omega) (fun i hi => h i (by omega))
    have hv := (Mix.serviceBelow_spec (by omega) hy).2.1 (BitVec.ofNat 5 n) (by rw [ofNat5_toNat (by omega)])
    obtain ⟨r, hr⟩ := (Voice.service_total p mem (y.chip.voice (BitVec.ofNat 5 n)) y.draws).1
      (by rw [hv]; exact h _ (by rw [ofNat5_toNat (by omega)]; omega))
    exact ⟨_, Mix.serviceBelow_succ.2 ⟨y, hy, Mix.service_eq_some.2 ⟨r, hr, rfl⟩⟩⟩

end Sys2Proof.Machine
end

