-- ==== Sys2Proof/Laws/Decode.lean ====
section
/-! SUPPORT. The event word and its bytes: packing and taking apart agree, so that a proof about an event's bytes is a proof about
its fields (spec/30_encoding.md R69). -/

namespace Sys2Proof

theorem packWord_toNat (c : BitVec 2) (w : BitVec 1) (p : Page) (o : Offset) :
    (packWord c w p o).toNat = ((c.toNat * 2 + w.toNat) * 128 + p.toNat) * 16 + o.toNat := by
  simp only [packWord, BitVec.toNat_append]
  rw [← Nat.shiftLeft_add_eq_or_of_lt w.isLt, ← Nat.shiftLeft_add_eq_or_of_lt p.isLt,
    ← Nat.shiftLeft_add_eq_or_of_lt o.isLt]
  simp only [Nat.shiftLeft_eq]

@[simp] theorem packWord_cls (c : BitVec 2) (w : BitVec 1) (p : Page) (o : Offset) :
    EventWord.cls (packWord c w p o) = c := by
  apply BitVec.eq_of_toNat_eq
  have := c.isLt; have := w.isLt; have := p.isLt; have := o.isLt
  simp only [EventWord.cls, BitVec.extractLsb'_toNat, packWord_toNat, Nat.shiftRight_eq_div_pow]
  omega

@[simp] theorem packWord_wr (c : BitVec 2) (w : BitVec 1) (p : Page) (o : Offset) :
    EventWord.wr (packWord c w p o) = w := by
  apply BitVec.eq_of_toNat_eq
  have := c.isLt; have := w.isLt; have := p.isLt; have := o.isLt
  simp only [EventWord.wr, BitVec.extractLsb'_toNat, packWord_toNat, Nat.shiftRight_eq_div_pow]
  omega

@[simp] theorem packWord_page (c : BitVec 2) (w : BitVec 1) (p : Page) (o : Offset) :
    EventWord.page (packWord c w p o) = p := by
  apply BitVec.eq_of_toNat_eq
  have := c.isLt; have := w.isLt; have := p.isLt; have := o.isLt
  simp only [EventWord.page, BitVec.extractLsb'_toNat, packWord_toNat, Nat.shiftRight_eq_div_pow]
  omega

@[simp] theorem packWord_offset (c : BitVec 2) (w : BitVec 1) (p : Page) (o : Offset) :
    EventWord.offset (packWord c w p o) = o := by
  apply BitVec.eq_of_toNat_eq
  have := c.isLt; have := w.isLt; have := p.isLt; have := o.isLt
  simp only [EventWord.offset, BitVec.extractLsb'_toNat, packWord_toNat, Nat.shiftRight_eq_div_pow]
  omega

/-- The two bytes of a word hold all of it. -/
theorem word_of_wordBytes (w : EventWord) :
    ((0#2 ++ w.extractLsb' 8 6 : Byte).extractLsb' 0 6 ++ w.extractLsb' 0 8 : EventWord) = w := by
  apply BitVec.eq_of_toNat_eq
  have := w.isLt
  rw [BitVec.toNat_append, ← Nat.shiftLeft_add_eq_or_of_lt (w.extractLsb' 0 8).isLt]
  simp only [BitVec.extractLsb'_toNat, BitVec.toNat_append, BitVec.toNat_ofNat, Nat.shiftLeft_eq,
    Nat.shiftRight_eq_div_pow, Nat.zero_mod, Nat.zero_mul, Nat.zero_or]
  omega

/-- The two bits above the word are 0. -/
theorem padding_of_wordBytes (w : EventWord) : (0#2 ++ w.extractLsb' 8 6 : Byte).extractLsb' 6 2 = 0#2 := by
  apply BitVec.eq_of_toNat_eq
  have := w.isLt
  simp only [BitVec.extractLsb'_toNat, BitVec.toNat_append, BitVec.toNat_ofNat, Nat.shiftLeft_eq,
    Nat.shiftRight_eq_div_pow, Nat.zero_mod, Nat.zero_mul, Nat.zero_or]
  omega

/-- The four bytes of a value hold all of it. -/
theorem value_of_valueBytes (v : Word) :
    (v.extractLsb' 24 8 ++ v.extractLsb' 16 8 ++ v.extractLsb' 8 8 ++ v.extractLsb' 0 8 : Word) = v := by
  apply BitVec.eq_of_toNat_eq
  have := v.isLt
  simp only [BitVec.toNat_append]
  rw [← Nat.shiftLeft_add_eq_or_of_lt (v.extractLsb' 16 8).isLt, ← Nat.shiftLeft_add_eq_or_of_lt (v.extractLsb' 8 8).isLt,
    ← Nat.shiftLeft_add_eq_or_of_lt (v.extractLsb' 0 8).isLt]
  simp only [BitVec.extractLsb'_toNat, Nat.shiftLeft_eq, Nat.shiftRight_eq_div_pow]
  omega

/-- The bytes of a word that carries no value are read as that word. -/
theorem decode_wordBytes {w : EventWord} (h : w.carriesValue = false) (rest : List Byte) :
    decode (wordBytes w ++ rest) = (decodeWord w 0#32).map (·, rest) := by
  simp only [wordBytes, List.cons_append, List.nil_append, decode, padding_of_wordBytes, word_of_wordBytes, h]
  simp

/-- The bytes of a word that carries a value, and of the value, are read as the two. -/
theorem decode_wordBytes_value {w : EventWord} (h : w.carriesValue = true) (v : Word) (rest : List Byte) :
    decode (wordBytes w ++ valueBytes v ++ rest) = (decodeWord w v).map (·, rest) := by
  simp only [wordBytes, valueBytes, List.cons_append, List.nil_append, decode, padding_of_wordBytes, word_of_wordBytes,
    h, value_of_valueBytes]
  simp

@[simp] theorem carriesValue_rdWord (p : Page) (o : Offset) : EventWord.carriesValue (rdWord p o) = false := by
  simp [EventWord.carriesValue, rdWord]

@[simp] theorem carriesValue_wrWord (p : Page) (o : Offset) : EventWord.carriesValue (wrWord p o) = true := by
  simp [EventWord.carriesValue, wrWord]

@[simp] theorem decodeWord_rdWord (p : Page) (o : Offset) (v : Word) : decodeWord (rdWord p o) v = .ok (decodeRd p o) := by
  simp [decodeWord, rdWord]

@[simp] theorem decodeWord_wrWord (p : Page) (o : Offset) (v : Word) : decodeWord (wrWord p o) v = .ok (decodeWr p o v) := by
  simp [decodeWord, wrWord]

end Sys2Proof
end

