-- ==== Sys2Proof/Laws/PerInstr.lean ====
section
/-! SUPPORT. Facts about every event as syntax, one lemma for each constructor. `TableRow`: the event word the encoder writes is selected by
a row that spec/opcode_table.json gives the event's mnemonic (spec/30_encoding.md R69: a word `e` selects a row when
`e & mask = match`). -/

namespace Sys2Proof.Laws

/-- One row of the opcode table: its mask and its match. -/
structure TableRow.Row where
  mask : EventWord
  pattern : EventWord
deriving DecidableEq, Repr

/-- One of the rows selects the word (R69). -/
def TableRow.selects (rows : List TableRow.Row) (w : EventWord) : Bool := rows.any fun r => w &&& r.mask == r.pattern

/-- The rows of spec/opcode_table.json that carry the event's mnemonic, read from the table. -/
def TableRow.rows : Instr → List TableRow.Row
  | .rdControl _ _ => [⟨0x3C0F#14, 0x0000#14⟩]
  | .rdFreqcount _ => [⟨0x3E0F#14, 0x0001#14⟩]
  | .rdLeftVolume _ => [⟨0x3E0F#14, 0x0002#14⟩]
  | .rdLeftRamp _ => [⟨0x3E0F#14, 0x0003#14⟩]
  | .rdRightVolume _ => [⟨0x3E0F#14, 0x0004#14⟩]
  | .rdRightRamp _ => [⟨0x3E0F#14, 0x0005#14⟩]
  | .rdEnvelopeCount _ => [⟨0x3E0F#14, 0x0006#14⟩]
  | .rdK2 _ => [⟨0x3E0F#14, 0x0007#14⟩]
  | .rdK2Ramp _ => [⟨0x3E0F#14, 0x0008#14⟩]
  | .rdK1 _ => [⟨0x3E0F#14, 0x0009#14⟩]
  | .rdK1Ramp _ => [⟨0x3E0F#14, 0x000A#14⟩]
  | .rdActiveVoices _ => [⟨0x3E0F#14, 0x000B#14⟩]
  | .rdMode _ => [⟨0x3E0F#14, 0x000C#14⟩]
  | .rdRsvdL13 _ => [⟨0x3E0F#14, 0x000D#14⟩]
  | .rdStart _ => [⟨0x3E0F#14, 0x0201#14⟩]
  | .rdEnd _ => [⟨0x3E0F#14, 0x0202#14⟩]
  | .rdAccumulator _ => [⟨0x3E0F#14, 0x0203#14⟩]
  | .rdO4 _ => [⟨0x3E0F#14, 0x0204#14⟩]
  | .rdO3 _ => [⟨0x3E0F#14, 0x0205#14⟩]
  | .rdO2 _ => [⟨0x3E0F#14, 0x0206#14⟩]
  | .rdO1 _ => [⟨0x3E0F#14, 0x0207#14⟩]
  | .rdExbank _ => [⟨0x3E0F#14, 0x0208#14⟩]
  | .rdRsvdH9 _ => [⟨0x3E0F#14, 0x0209#14⟩]
  | .rdRsvdH10 _ => [⟨0x3E0F#14, 0x020A#14⟩]
  | .rdRsvdH11 _ => [⟨0x3E0F#14, 0x020B#14⟩]
  | .rdRsvdH12 _ => [⟨0x3E0F#14, 0x020C#14⟩]
  | .rdRsvdH13 _ => [⟨0x3E0F#14, 0x020D#14⟩]
  | .rdIrqv _ => [⟨0x380F#14, 0x000E#14⟩]
  | .rdPage _ => [⟨0x380F#14, 0x000F#14⟩]
  | .rdTest _ _ => [⟨0x3C08#14, 0x0400#14⟩, ⟨0x3C0C#14, 0x0408#14⟩, ⟨0x3C0E#14, 0x040C#14⟩]
  | .wrControl _ _ _ => [⟨0x3C0F#14, 0x0800#14⟩]
  | .wrFreqcount _ _ => [⟨0x3E0F#14, 0x0801#14⟩]
  | .wrLeftVolume _ _ => [⟨0x3E0F#14, 0x0802#14⟩]
  | .wrLeftRamp _ _ => [⟨0x3E0F#14, 0x0803#14⟩]
  | .wrRightVolume _ _ => [⟨0x3E0F#14, 0x0804#14⟩]
  | .wrRightRamp _ _ => [⟨0x3E0F#14, 0x0805#14⟩]
  | .wrEnvelopeCount _ _ => [⟨0x3E0F#14, 0x0806#14⟩]
  | .wrK2 _ _ => [⟨0x3E0F#14, 0x0807#14⟩]
  | .wrK2Ramp _ _ => [⟨0x3E0F#14, 0x0808#14⟩]
  | .wrK1 _ _ => [⟨0x3E0F#14, 0x0809#14⟩]
  | .wrK1Ramp _ _ => [⟨0x3E0F#14, 0x080A#14⟩]
  | .wrActiveVoices _ _ => [⟨0x3E0F#14, 0x080B#14⟩]
  | .wrMode _ _ => [⟨0x3E0F#14, 0x080C#14⟩]
  | .wrRsvdL13 _ _ => [⟨0x3E0F#14, 0x080D#14⟩]
  | .wrStart _ _ => [⟨0x3E0F#14, 0x0A01#14⟩]
  | .wrEnd _ _ => [⟨0x3E0F#14, 0x0A02#14⟩]
  | .wrAccumulator _ _ => [⟨0x3E0F#14, 0x0A03#14⟩]
  | .wrO4 _ _ => [⟨0x3E0F#14, 0x0A04#14⟩]
  | .wrO3 _ _ => [⟨0x3E0F#14, 0x0A05#14⟩]
  | .wrO2 _ _ => [⟨0x3E0F#14, 0x0A06#14⟩]
  | .wrO1 _ _ => [⟨0x3E0F#14, 0x0A07#14⟩]
  | .wrExbank _ _ => [⟨0x3E0F#14, 0x0A08#14⟩]
  | .wrRsvdH9 _ _ => [⟨0x3E0F#14, 0x0A09#14⟩]
  | .wrRsvdH10 _ _ => [⟨0x3E0F#14, 0x0A0A#14⟩]
  | .wrRsvdH11 _ _ => [⟨0x3E0F#14, 0x0A0B#14⟩]
  | .wrRsvdH12 _ _ => [⟨0x3E0F#14, 0x0A0C#14⟩]
  | .wrRsvdH13 _ _ => [⟨0x3E0F#14, 0x0A0D#14⟩]
  | .wrIrqv _ _ => [⟨0x380F#14, 0x080E#14⟩]
  | .wrPage _ _ => [⟨0x380F#14, 0x080F#14⟩]
  | .wrTest _ _ _ => [⟨0x3C08#14, 0x0C00#14⟩, ⟨0x3C0C#14, 0x0C08#14⟩, ⟨0x3C0E#14, 0x0C0C#14⟩]
  | .frame => [⟨0x3000#14, 0x1000#14⟩]
  | .reset => [⟨0x3000#14, 0x2000#14⟩]

/-- The event word of a well-formed event is selected by a row of its mnemonic. -/
def TableRow.Statement (i : Instr) : Prop := i.wf = true → TableRow.selects (TableRow.rows i) (eventWord i) = true

theorem TableRow.rdControl (view : BitVec 1) (voice : VoiceIx) : TableRow.Statement (.rdControl view voice) := by
  have h : ∀ (view : BitVec 1) (voice : VoiceIx), TableRow.selects [⟨0x3C0F#14, 0x0000#14⟩] (rdWord (pageOf view voice) 0#4) = true := by decide
  exact fun _ => h view voice

theorem TableRow.rdFreqcount (voice : VoiceIx) : TableRow.Statement (.rdFreqcount voice) := by
  have h : ∀ (voice : VoiceIx), TableRow.selects [⟨0x3E0F#14, 0x0001#14⟩] (rdWord (pageOf 0#1 voice) 1#4) = true := by decide
  exact fun _ => h voice

theorem TableRow.rdLeftVolume (voice : VoiceIx) : TableRow.Statement (.rdLeftVolume voice) := by
  have h : ∀ (voice : VoiceIx), TableRow.selects [⟨0x3E0F#14, 0x0002#14⟩] (rdWord (pageOf 0#1 voice) 2#4) = true := by decide
  exact fun _ => h voice

theorem TableRow.rdLeftRamp (voice : VoiceIx) : TableRow.Statement (.rdLeftRamp voice) := by
  have h : ∀ (voice : VoiceIx), TableRow.selects [⟨0x3E0F#14, 0x0003#14⟩] (rdWord (pageOf 0#1 voice) 3#4) = true := by decide
  exact fun _ => h voice

theorem TableRow.rdRightVolume (voice : VoiceIx) : TableRow.Statement (.rdRightVolume voice) := by
  have h : ∀ (voice : VoiceIx), TableRow.selects [⟨0x3E0F#14, 0x0004#14⟩] (rdWord (pageOf 0#1 voice) 4#4) = true := by decide
  exact fun _ => h voice

theorem TableRow.rdRightRamp (voice : VoiceIx) : TableRow.Statement (.rdRightRamp voice) := by
  have h : ∀ (voice : VoiceIx), TableRow.selects [⟨0x3E0F#14, 0x0005#14⟩] (rdWord (pageOf 0#1 voice) 5#4) = true := by decide
  exact fun _ => h voice

theorem TableRow.rdEnvelopeCount (voice : VoiceIx) : TableRow.Statement (.rdEnvelopeCount voice) := by
  have h : ∀ (voice : VoiceIx), TableRow.selects [⟨0x3E0F#14, 0x0006#14⟩] (rdWord (pageOf 0#1 voice) 6#4) = true := by decide
  exact fun _ => h voice

theorem TableRow.rdK2 (voice : VoiceIx) : TableRow.Statement (.rdK2 voice) := by
  have h : ∀ (voice : VoiceIx), TableRow.selects [⟨0x3E0F#14, 0x0007#14⟩] (rdWord (pageOf 0#1 voice) 7#4) = true := by decide
  exact fun _ => h voice

theorem TableRow.rdK2Ramp (voice : VoiceIx) : TableRow.Statement (.rdK2Ramp voice) := by
  have h : ∀ (voice : VoiceIx), TableRow.selects [⟨0x3E0F#14, 0x0008#14⟩] (rdWord (pageOf 0#1 voice) 8#4) = true := by decide
  exact fun _ => h voice

theorem TableRow.rdK1 (voice : VoiceIx) : TableRow.Statement (.rdK1 voice) := by
  have h : ∀ (voice : VoiceIx), TableRow.selects [⟨0x3E0F#14, 0x0009#14⟩] (rdWord (pageOf 0#1 voice) 9#4) = true := by decide
  exact fun _ => h voice

theorem TableRow.rdK1Ramp (voice : VoiceIx) : TableRow.Statement (.rdK1Ramp voice) := by
  have h : ∀ (voice : VoiceIx), TableRow.selects [⟨0x3E0F#14, 0x000A#14⟩] (rdWord (pageOf 0#1 voice) 10#4) = true := by decide
  exact fun _ => h voice

theorem TableRow.rdActiveVoices (pageLow : BitVec 5) : TableRow.Statement (.rdActiveVoices pageLow) := by
  have h : ∀ (pageLow : BitVec 5), TableRow.selects [⟨0x3E0F#14, 0x000B#14⟩] (rdWord (pageOf 0#1 pageLow) 11#4) = true := by decide
  exact fun _ => h pageLow

theorem TableRow.rdMode (pageLow : BitVec 5) : TableRow.Statement (.rdMode pageLow) := by
  have h : ∀ (pageLow : BitVec 5), TableRow.selects [⟨0x3E0F#14, 0x000C#14⟩] (rdWord (pageOf 0#1 pageLow) 12#4) = true := by decide
  exact fun _ => h pageLow

theorem TableRow.rdRsvdL13 (pageLow : BitVec 5) : TableRow.Statement (.rdRsvdL13 pageLow) := by
  have h : ∀ (pageLow : BitVec 5), TableRow.selects [⟨0x3E0F#14, 0x000D#14⟩] (rdWord (pageOf 0#1 pageLow) 13#4) = true := by decide
  exact fun _ => h pageLow

theorem TableRow.rdStart (voice : VoiceIx) : TableRow.Statement (.rdStart voice) := by
  have h : ∀ (voice : VoiceIx), TableRow.selects [⟨0x3E0F#14, 0x0201#14⟩] (rdWord (pageOf 1#1 voice) 1#4) = true := by decide
  exact fun _ => h voice

theorem TableRow.rdEnd (voice : VoiceIx) : TableRow.Statement (.rdEnd voice) := by
  have h : ∀ (voice : VoiceIx), TableRow.selects [⟨0x3E0F#14, 0x0202#14⟩] (rdWord (pageOf 1#1 voice) 2#4) = true := by decide
  exact fun _ => h voice

theorem TableRow.rdAccumulator (voice : VoiceIx) : TableRow.Statement (.rdAccumulator voice) := by
  have h : ∀ (voice : VoiceIx), TableRow.selects [⟨0x3E0F#14, 0x0203#14⟩] (rdWord (pageOf 1#1 voice) 3#4) = true := by decide
  exact fun _ => h voice

theorem TableRow.rdO4 (voice : VoiceIx) : TableRow.Statement (.rdO4 voice) := by
  have h : ∀ (voice : VoiceIx), TableRow.selects [⟨0x3E0F#14, 0x0204#14⟩] (rdWord (pageOf 1#1 voice) 4#4) = true := by decide
  exact fun _ => h voice

theorem TableRow.rdO3 (voice : VoiceIx) : TableRow.Statement (.rdO3 voice) := by
  have h : ∀ (voice : VoiceIx), TableRow.selects [⟨0x3E0F#14, 0x0205#14⟩] (rdWord (pageOf 1#1 voice) 5#4) = true := by decide
  exact fun _ => h voice

theorem TableRow.rdO2 (voice : VoiceIx) : TableRow.Statement (.rdO2 voice) := by
  have h : ∀ (voice : VoiceIx), TableRow.selects [⟨0x3E0F#14, 0x0206#14⟩] (rdWord (pageOf 1#1 voice) 6#4) = true := by decide
  exact fun _ => h voice

theorem TableRow.rdO1 (voice : VoiceIx) : TableRow.Statement (.rdO1 voice) := by
  have h : ∀ (voice : VoiceIx), TableRow.selects [⟨0x3E0F#14, 0x0207#14⟩] (rdWord (pageOf 1#1 voice) 7#4) = true := by decide
  exact fun _ => h voice

theorem TableRow.rdExbank (voice : VoiceIx) : TableRow.Statement (.rdExbank voice) := by
  have h : ∀ (voice : VoiceIx), TableRow.selects [⟨0x3E0F#14, 0x0208#14⟩] (rdWord (pageOf 1#1 voice) 8#4) = true := by decide
  exact fun _ => h voice

theorem TableRow.rdRsvdH9 (voice : VoiceIx) : TableRow.Statement (.rdRsvdH9 voice) := by
  have h : ∀ (voice : VoiceIx), TableRow.selects [⟨0x3E0F#14, 0x0209#14⟩] (rdWord (pageOf 1#1 voice) 9#4) = true := by decide
  exact fun _ => h voice

theorem TableRow.rdRsvdH10 (voice : VoiceIx) : TableRow.Statement (.rdRsvdH10 voice) := by
  have h : ∀ (voice : VoiceIx), TableRow.selects [⟨0x3E0F#14, 0x020A#14⟩] (rdWord (pageOf 1#1 voice) 10#4) = true := by decide
  exact fun _ => h voice

theorem TableRow.rdRsvdH11 (voice : VoiceIx) : TableRow.Statement (.rdRsvdH11 voice) := by
  have h : ∀ (voice : VoiceIx), TableRow.selects [⟨0x3E0F#14, 0x020B#14⟩] (rdWord (pageOf 1#1 voice) 11#4) = true := by decide
  exact fun _ => h voice

theorem TableRow.rdRsvdH12 (voice : VoiceIx) : TableRow.Statement (.rdRsvdH12 voice) := by
  have h : ∀ (voice : VoiceIx), TableRow.selects [⟨0x3E0F#14, 0x020C#14⟩] (rdWord (pageOf 1#1 voice) 12#4) = true := by decide
  exact fun _ => h voice

theorem TableRow.rdRsvdH13 (voice : VoiceIx) : TableRow.Statement (.rdRsvdH13 voice) := by
  have h : ∀ (voice : VoiceIx), TableRow.selects [⟨0x3E0F#14, 0x020D#14⟩] (rdWord (pageOf 1#1 voice) 13#4) = true := by decide
  exact fun _ => h voice

theorem TableRow.rdIrqv (page : Page) : TableRow.Statement (.rdIrqv page) := by
  have h : ∀ (page : Page), TableRow.selects [⟨0x380F#14, 0x000E#14⟩] (rdWord page 14#4) = true := by decide
  exact fun _ => h page

theorem TableRow.rdPage (page : Page) : TableRow.Statement (.rdPage page) := by
  have h : ∀ (page : Page), TableRow.selects [⟨0x380F#14, 0x000F#14⟩] (rdWord page 15#4) = true := by decide
  exact fun _ => h page

theorem TableRow.rdTest (pageLow : BitVec 6) (offset : Offset) : TableRow.Statement (.rdTest pageLow offset) := by
  have h : ∀ (pageLow : BitVec 6) (offset : Offset), Instr.testOffsetOk offset = true → TableRow.selects [⟨0x3C08#14, 0x0400#14⟩, ⟨0x3C0C#14, 0x0408#14⟩, ⟨0x3C0E#14, 0x040C#14⟩] (rdWord (testPageOf pageLow) offset) = true := by decide
  exact h pageLow offset

theorem TableRow.wrControl (view : BitVec 1) (voice : VoiceIx) (value : Word) : TableRow.Statement (.wrControl view voice value) := by
  have h : ∀ (view : BitVec 1) (voice : VoiceIx), TableRow.selects [⟨0x3C0F#14, 0x0800#14⟩] (wrWord (pageOf view voice) 0#4) = true := by decide
  exact fun _ => h view voice

theorem TableRow.wrFreqcount (voice : VoiceIx) (value : Word) : TableRow.Statement (.wrFreqcount voice value) := by
  have h : ∀ (voice : VoiceIx), TableRow.selects [⟨0x3E0F#14, 0x0801#14⟩] (wrWord (pageOf 0#1 voice) 1#4) = true := by decide
  exact fun _ => h voice

theorem TableRow.wrLeftVolume (voice : VoiceIx) (value : Word) : TableRow.Statement (.wrLeftVolume voice value) := by
  have h : ∀ (voice : VoiceIx), TableRow.selects [⟨0x3E0F#14, 0x0802#14⟩] (wrWord (pageOf 0#1 voice) 2#4) = true := by decide
  exact fun _ => h voice

theorem TableRow.wrLeftRamp (voice : VoiceIx) (value : Word) : TableRow.Statement (.wrLeftRamp voice value) := by
  have h : ∀ (voice : VoiceIx), TableRow.selects [⟨0x3E0F#14, 0x0803#14⟩] (wrWord (pageOf 0#1 voice) 3#4) = true := by decide
  exact fun _ => h voice

theorem TableRow.wrRightVolume (voice : VoiceIx) (value : Word) : TableRow.Statement (.wrRightVolume voice value) := by
  have h : ∀ (voice : VoiceIx), TableRow.selects [⟨0x3E0F#14, 0x0804#14⟩] (wrWord (pageOf 0#1 voice) 4#4) = true := by decide
  exact fun _ => h voice

theorem TableRow.wrRightRamp (voice : VoiceIx) (value : Word) : TableRow.Statement (.wrRightRamp voice value) := by
  have h : ∀ (voice : VoiceIx), TableRow.selects [⟨0x3E0F#14, 0x0805#14⟩] (wrWord (pageOf 0#1 voice) 5#4) = true := by decide
  exact fun _ => h voice

theorem TableRow.wrEnvelopeCount (voice : VoiceIx) (value : Word) : TableRow.Statement (.wrEnvelopeCount voice value) := by
  have h : ∀ (voice : VoiceIx), TableRow.selects [⟨0x3E0F#14, 0x0806#14⟩] (wrWord (pageOf 0#1 voice) 6#4) = true := by decide
  exact fun _ => h voice

theorem TableRow.wrK2 (voice : VoiceIx) (value : Word) : TableRow.Statement (.wrK2 voice value) := by
  have h : ∀ (voice : VoiceIx), TableRow.selects [⟨0x3E0F#14, 0x0807#14⟩] (wrWord (pageOf 0#1 voice) 7#4) = true := by decide
  exact fun _ => h voice

theorem TableRow.wrK2Ramp (voice : VoiceIx) (value : Word) : TableRow.Statement (.wrK2Ramp voice value) := by
  have h : ∀ (voice : VoiceIx), TableRow.selects [⟨0x3E0F#14, 0x0808#14⟩] (wrWord (pageOf 0#1 voice) 8#4) = true := by decide
  exact fun _ => h voice

theorem TableRow.wrK1 (voice : VoiceIx) (value : Word) : TableRow.Statement (.wrK1 voice value) := by
  have h : ∀ (voice : VoiceIx), TableRow.selects [⟨0x3E0F#14, 0x0809#14⟩] (wrWord (pageOf 0#1 voice) 9#4) = true := by decide
  exact fun _ => h voice

theorem TableRow.wrK1Ramp (voice : VoiceIx) (value : Word) : TableRow.Statement (.wrK1Ramp voice value) := by
  have h : ∀ (voice : VoiceIx), TableRow.selects [⟨0x3E0F#14, 0x080A#14⟩] (wrWord (pageOf 0#1 voice) 10#4) = true := by decide
  exact fun _ => h voice

theorem TableRow.wrActiveVoices (pageLow : BitVec 5) (value : Word) : TableRow.Statement (.wrActiveVoices pageLow value) := by
  have h : ∀ (pageLow : BitVec 5), TableRow.selects [⟨0x3E0F#14, 0x080B#14⟩] (wrWord (pageOf 0#1 pageLow) 11#4) = true := by decide
  exact fun _ => h pageLow

theorem TableRow.wrMode (pageLow : BitVec 5) (value : Word) : TableRow.Statement (.wrMode pageLow value) := by
  have h : ∀ (pageLow : BitVec 5), TableRow.selects [⟨0x3E0F#14, 0x080C#14⟩] (wrWord (pageOf 0#1 pageLow) 12#4) = true := by decide
  exact fun _ => h pageLow

theorem TableRow.wrRsvdL13 (pageLow : BitVec 5) (value : Word) : TableRow.Statement (.wrRsvdL13 pageLow value) := by
  have h : ∀ (pageLow : BitVec 5), TableRow.selects [⟨0x3E0F#14, 0x080D#14⟩] (wrWord (pageOf 0#1 pageLow) 13#4) = true := by decide
  exact fun _ => h pageLow

theorem TableRow.wrStart (voice : VoiceIx) (value : Word) : TableRow.Statement (.wrStart voice value) := by
  have h : ∀ (voice : VoiceIx), TableRow.selects [⟨0x3E0F#14, 0x0A01#14⟩] (wrWord (pageOf 1#1 voice) 1#4) = true := by decide
  exact fun _ => h voice

theorem TableRow.wrEnd (voice : VoiceIx) (value : Word) : TableRow.Statement (.wrEnd voice value) := by
  have h : ∀ (voice : VoiceIx), TableRow.selects [⟨0x3E0F#14, 0x0A02#14⟩] (wrWord (pageOf 1#1 voice) 2#4) = true := by decide
  exact fun _ => h voice

theorem TableRow.wrAccumulator (voice : VoiceIx) (value : Word) : TableRow.Statement (.wrAccumulator voice value) := by
  have h : ∀ (voice : VoiceIx), TableRow.selects [⟨0x3E0F#14, 0x0A03#14⟩] (wrWord (pageOf 1#1 voice) 3#4) = true := by decide
  exact fun _ => h voice

theorem TableRow.wrO4 (voice : VoiceIx) (value : Word) : TableRow.Statement (.wrO4 voice value) := by
  have h : ∀ (voice : VoiceIx), TableRow.selects [⟨0x3E0F#14, 0x0A04#14⟩] (wrWord (pageOf 1#1 voice) 4#4) = true := by decide
  exact fun _ => h voice

theorem TableRow.wrO3 (voice : VoiceIx) (value : Word) : TableRow.Statement (.wrO3 voice value) := by
  have h : ∀ (voice : VoiceIx), TableRow.selects [⟨0x3E0F#14, 0x0A05#14⟩] (wrWord (pageOf 1#1 voice) 5#4) = true := by decide
  exact fun _ => h voice

theorem TableRow.wrO2 (voice : VoiceIx) (value : Word) : TableRow.Statement (.wrO2 voice value) := by
  have h : ∀ (voice : VoiceIx), TableRow.selects [⟨0x3E0F#14, 0x0A06#14⟩] (wrWord (pageOf 1#1 voice) 6#4) = true := by decide
  exact fun _ => h voice

theorem TableRow.wrO1 (voice : VoiceIx) (value : Word) : TableRow.Statement (.wrO1 voice value) := by
  have h : ∀ (voice : VoiceIx), TableRow.selects [⟨0x3E0F#14, 0x0A07#14⟩] (wrWord (pageOf 1#1 voice) 7#4) = true := by decide
  exact fun _ => h voice

theorem TableRow.wrExbank (voice : VoiceIx) (value : Word) : TableRow.Statement (.wrExbank voice value) := by
  have h : ∀ (voice : VoiceIx), TableRow.selects [⟨0x3E0F#14, 0x0A08#14⟩] (wrWord (pageOf 1#1 voice) 8#4) = true := by decide
  exact fun _ => h voice

theorem TableRow.wrRsvdH9 (voice : VoiceIx) (value : Word) : TableRow.Statement (.wrRsvdH9 voice value) := by
  have h : ∀ (voice : VoiceIx), TableRow.selects [⟨0x3E0F#14, 0x0A09#14⟩] (wrWord (pageOf 1#1 voice) 9#4) = true := by decide
  exact fun _ => h voice

theorem TableRow.wrRsvdH10 (voice : VoiceIx) (value : Word) : TableRow.Statement (.wrRsvdH10 voice value) := by
  have h : ∀ (voice : VoiceIx), TableRow.selects [⟨0x3E0F#14, 0x0A0A#14⟩] (wrWord (pageOf 1#1 voice) 10#4) = true := by decide
  exact fun _ => h voice

theorem TableRow.wrRsvdH11 (voice : VoiceIx) (value : Word) : TableRow.Statement (.wrRsvdH11 voice value) := by
  have h : ∀ (voice : VoiceIx), TableRow.selects [⟨0x3E0F#14, 0x0A0B#14⟩] (wrWord (pageOf 1#1 voice) 11#4) = true := by decide
  exact fun _ => h voice

theorem TableRow.wrRsvdH12 (voice : VoiceIx) (value : Word) : TableRow.Statement (.wrRsvdH12 voice value) := by
  have h : ∀ (voice : VoiceIx), TableRow.selects [⟨0x3E0F#14, 0x0A0C#14⟩] (wrWord (pageOf 1#1 voice) 12#4) = true := by decide
  exact fun _ => h voice

theorem TableRow.wrRsvdH13 (voice : VoiceIx) (value : Word) : TableRow.Statement (.wrRsvdH13 voice value) := by
  have h : ∀ (voice : VoiceIx), TableRow.selects [⟨0x3E0F#14, 0x0A0D#14⟩] (wrWord (pageOf 1#1 voice) 13#4) = true := by decide
  exact fun _ => h voice

theorem TableRow.wrIrqv (page : Page) (value : Word) : TableRow.Statement (.wrIrqv page value) := by
  have h : ∀ (page : Page), TableRow.selects [⟨0x380F#14, 0x080E#14⟩] (wrWord page 14#4) = true := by decide
  exact fun _ => h page

theorem TableRow.wrPage (page : Page) (value : Word) : TableRow.Statement (.wrPage page value) := by
  have h : ∀ (page : Page), TableRow.selects [⟨0x380F#14, 0x080F#14⟩] (wrWord page 15#4) = true := by decide
  exact fun _ => h page

theorem TableRow.wrTest (pageLow : BitVec 6) (offset : Offset) (value : Word) : TableRow.Statement (.wrTest pageLow offset value) := by
  have h : ∀ (pageLow : BitVec 6) (offset : Offset), Instr.testOffsetOk offset = true → TableRow.selects [⟨0x3C08#14, 0x0C00#14⟩, ⟨0x3C0C#14, 0x0C08#14⟩, ⟨0x3C0E#14, 0x0C0C#14⟩] (wrWord (testPageOf pageLow) offset) = true := by decide
  exact h pageLow offset

theorem TableRow.frame : TableRow.Statement .frame := by
  have h : TableRow.selects [⟨0x3000#14, 0x1000#14⟩] (packWord 1#2 0#1 0#7 0#4) = true := by decide
  exact fun _ => h

theorem TableRow.reset : TableRow.Statement .reset := by
  have h : TableRow.selects [⟨0x3000#14, 0x2000#14⟩] (packWord 2#2 0#1 0#7 0#4) = true := by decide
  exact fun _ => h

end Sys2Proof.Laws
end

