-- ==== Sys2Proof/Tests/Slice0.lean ====
section
/-! SUPPORT. Tests of single events, each with its source in spec/, and for each statement that has hypotheses a witness that
meets them. -/

namespace Sys2Proof.Tests

open Sys2Proof Sys2Proof.Machine

/-! ### Well-formedness: offsets 14 and 15 of a test page are no stub (R70 item 4) -/

theorem test_wf_rdTest : (Instr.rdTest 63#6 13#4).wf = true ∧ (Instr.rdTest 63#6 14#4).wf = false ∧
    (Instr.rdTest 0#6 15#4).wf = false := by decide

theorem test_wf_wrTest : (Instr.wrTest 63#6 13#4 1#32).wf = true ∧ (Instr.wrTest 63#6 14#4 1#32).wf = false ∧
    (Instr.wrTest 0#6 15#4 1#32).wf = false := by decide

/-! ### Decoding -/

/-- The reads of the low view, each word written out from its rule's pattern (R81 to R105, R127); `p` is 110110 or 10110. -/
theorem test_decode_low_view_reads :
    decodeWord 0b00001101100000#14 0x89ABCDEF#32 = .ok (.rdControl 1#1 22#5) ∧
    decodeWord 0b00000101100001#14 0x89ABCDEF#32 = .ok (.rdFreqcount 22#5) ∧
    decodeWord 0b00000101100010#14 0x89ABCDEF#32 = .ok (.rdLeftVolume 22#5) ∧
    decodeWord 0b00000101100011#14 0x89ABCDEF#32 = .ok (.rdLeftRamp 22#5) ∧
    decodeWord 0b00000101100100#14 0x89ABCDEF#32 = .ok (.rdRightVolume 22#5) ∧
    decodeWord 0b00000101100101#14 0x89ABCDEF#32 = .ok (.rdRightRamp 22#5) ∧
    decodeWord 0b00000101100110#14 0x89ABCDEF#32 = .ok (.rdEnvelopeCount 22#5) ∧
    decodeWord 0b00000101100111#14 0x89ABCDEF#32 = .ok (.rdK2 22#5) ∧
    decodeWord 0b00000101101000#14 0x89ABCDEF#32 = .ok (.rdK2Ramp 22#5) ∧
    decodeWord 0b00000101101001#14 0x89ABCDEF#32 = .ok (.rdK1 22#5) ∧
    decodeWord 0b00000101101010#14 0x89ABCDEF#32 = .ok (.rdK1Ramp 22#5) ∧
    decodeWord 0b00000101101011#14 0x89ABCDEF#32 = .ok (.rdActiveVoices 22#5) ∧
    decodeWord 0b00000101101100#14 0x89ABCDEF#32 = .ok (.rdMode 22#5) ∧
    decodeWord 0b00000101101101#14 0x89ABCDEF#32 = .ok (.rdRsvdL13 22#5) := by
  refine ⟨?_, ?_, ?_, ?_, ?_, ?_, ?_, ?_, ?_, ?_, ?_, ?_, ?_, ?_⟩ <;> decide

/-- The writes of the low view (R80 to R104, R126). -/
theorem test_decode_low_view_writes :
    decodeWord 0b00101101100000#14 0x89ABCDEF#32 = .ok (.wrControl 1#1 22#5 0x89ABCDEF#32) ∧
    decodeWord 0b00100101100001#14 0x89ABCDEF#32 = .ok (.wrFreqcount 22#5 0x89ABCDEF#32) ∧
    decodeWord 0b00100101100010#14 0x89ABCDEF#32 = .ok (.wrLeftVolume 22#5 0x89ABCDEF#32) ∧
    decodeWord 0b00100101100011#14 0x89ABCDEF#32 = .ok (.wrLeftRamp 22#5 0x89ABCDEF#32) ∧
    decodeWord 0b00100101100100#14 0x89ABCDEF#32 = .ok (.wrRightVolume 22#5 0x89ABCDEF#32) ∧
    decodeWord 0b00100101100101#14 0x89ABCDEF#32 = .ok (.wrRightRamp 22#5 0x89ABCDEF#32) ∧
    decodeWord 0b00100101100110#14 0x89ABCDEF#32 = .ok (.wrEnvelopeCount 22#5 0x89ABCDEF#32) ∧
    decodeWord 0b00100101100111#14 0x89ABCDEF#32 = .ok (.wrK2 22#5 0x89ABCDEF#32) ∧
    decodeWord 0b00100101101000#14 0x89ABCDEF#32 = .ok (.wrK2Ramp 22#5 0x89ABCDEF#32) ∧
    decodeWord 0b00100101101001#14 0x89ABCDEF#32 = .ok (.wrK1 22#5 0x89ABCDEF#32) ∧
    decodeWord 0b00100101101010#14 0x89ABCDEF#32 = .ok (.wrK1Ramp 22#5 0x89ABCDEF#32) ∧
    decodeWord 0b00100101101011#14 0x89ABCDEF#32 = .ok (.wrActiveVoices 22#5 0x89ABCDEF#32) ∧
    decodeWord 0b00100101101100#14 0x89ABCDEF#32 = .ok (.wrMode 22#5 0x89ABCDEF#32) ∧
    decodeWord 0b00100101101101#14 0x89ABCDEF#32 = .ok (.wrRsvdL13 22#5 0x89ABCDEF#32) := by
  refine ⟨?_, ?_, ?_, ?_, ?_, ?_, ?_, ?_, ?_, ?_, ?_, ?_, ?_, ?_⟩ <;> decide

/-- The reads of the high view (R107 to R125, R129). -/
theorem test_decode_high_view_reads :
    decodeWord 0b00001101100001#14 0x89ABCDEF#32 = .ok (.rdStart 22#5) ∧
    decodeWord 0b00001101100010#14 0x89ABCDEF#32 = .ok (.rdEnd 22#5) ∧
    decodeWord 0b00001101100011#14 0x89ABCDEF#32 = .ok (.rdAccumulator 22#5) ∧
    decodeWord 0b00001101100100#14 0x89ABCDEF#32 = .ok (.rdO4 22#5) ∧
    decodeWord 0b00001101100101#14 0x89ABCDEF#32 = .ok (.rdO3 22#5) ∧
    decodeWord 0b00001101100110#14 0x89ABCDEF#32 = .ok (.rdO2 22#5) ∧
    decodeWord 0b00001101100111#14 0x89ABCDEF#32 = .ok (.rdO1 22#5) ∧
    decodeWord 0b00001101101000#14 0x89ABCDEF#32 = .ok (.rdExbank 22#5) ∧
    decodeWord 0b00001101101001#14 0x89ABCDEF#32 = .ok (.rdRsvdH9 22#5) ∧
    decodeWord 0b00001101101010#14 0x89ABCDEF#32 = .ok (.rdRsvdH10 22#5) ∧
    decodeWord 0b00001101101011#14 0x89ABCDEF#32 = .ok (.rdRsvdH11 22#5) ∧
    decodeWord 0b00001101101100#14 0x89ABCDEF#32 = .ok (.rdRsvdH12 22#5) ∧
    decodeWord 0b00001101101101#14 0x89ABCDEF#32 = .ok (.rdRsvdH13 22#5) := by
  refine ⟨?_, ?_, ?_, ?_, ?_, ?_, ?_, ?_, ?_, ?_, ?_, ?_, ?_⟩ <;> decide

/-- The writes of the high view (R106 to R124, R128). -/
theorem test_decode_high_view_writes :
    decodeWord 0b00101101100001#14 0x89ABCDEF#32 = .ok (.wrStart 22#5 0x89ABCDEF#32) ∧
    decodeWord 0b00101101100010#14 0x89ABCDEF#32 = .ok (.wrEnd 22#5 0x89ABCDEF#32) ∧
    decodeWord 0b00101101100011#14 0x89ABCDEF#32 = .ok (.wrAccumulator 22#5 0x89ABCDEF#32) ∧
    decodeWord 0b00101101100100#14 0x89ABCDEF#32 = .ok (.wrO4 22#5 0x89ABCDEF#32) ∧
    decodeWord 0b00101101100101#14 0x89ABCDEF#32 = .ok (.wrO3 22#5 0x89ABCDEF#32) ∧
    decodeWord 0b00101101100110#14 0x89ABCDEF#32 = .ok (.wrO2 22#5 0x89ABCDEF#32) ∧
    decodeWord 0b00101101100111#14 0x89ABCDEF#32 = .ok (.wrO1 22#5 0x89ABCDEF#32) ∧
    decodeWord 0b00101101101000#14 0x89ABCDEF#32 = .ok (.wrExbank 22#5 0x89ABCDEF#32) ∧
    decodeWord 0b00101101101001#14 0x89ABCDEF#32 = .ok (.wrRsvdH9 22#5 0x89ABCDEF#32) ∧
    decodeWord 0b00101101101010#14 0x89ABCDEF#32 = .ok (.wrRsvdH10 22#5 0x89ABCDEF#32) ∧
    decodeWord 0b00101101101011#14 0x89ABCDEF#32 = .ok (.wrRsvdH11 22#5 0x89ABCDEF#32) ∧
    decodeWord 0b00101101101100#14 0x89ABCDEF#32 = .ok (.wrRsvdH12 22#5 0x89ABCDEF#32) ∧
    decodeWord 0b00101101101101#14 0x89ABCDEF#32 = .ok (.wrRsvdH13 22#5 0x89ABCDEF#32) := by
  refine ⟨?_, ?_, ?_, ?_, ?_, ?_, ?_, ?_, ?_, ?_, ?_, ?_, ?_⟩ <;> decide

/-- Offsets 14 and 15, which every page shows (R112 to R115). -/
theorem test_decode_every_page :
    decodeWord 0b00010101101110#14 0x89ABCDEF#32 = .ok (.rdIrqv 86#7) ∧
    decodeWord 0b00110101101110#14 0x89ABCDEF#32 = .ok (.wrIrqv 86#7 0x89ABCDEF#32) ∧
    decodeWord 0b00010101101111#14 0x89ABCDEF#32 = .ok (.rdPage 86#7) ∧
    decodeWord 0b00110101101111#14 0x89ABCDEF#32 = .ok (.wrPage 86#7 0x89ABCDEF#32) := by
  refine ⟨?_, ?_, ?_, ?_⟩ <;> decide

/-- The three patterns of a test page (R130, R131). -/
theorem test_decode_test_pages :
    decodeWord 0b00011101100101#14 7#32 = .ok (.rdTest 54#6 5#4) ∧
    decodeWord 0b00011101101010#14 7#32 = .ok (.rdTest 54#6 10#4) ∧
    decodeWord 0b00011101101101#14 7#32 = .ok (.rdTest 54#6 13#4) ∧
    decodeWord 0b00111101100101#14 7#32 = .ok (.wrTest 54#6 5#4 7#32) ∧
    decodeWord 0b00111101101010#14 7#32 = .ok (.wrTest 54#6 10#4 7#32) ∧
    decodeWord 0b00111101101101#14 7#32 = .ok (.wrTest 54#6 13#4 7#32) := by
  refine ⟨?_, ?_, ?_, ?_, ?_, ?_⟩ <;> decide

/-- Classes 1, 2 and 3, the bits 11:0 not decoded (R69, R73, R210, R260). -/
theorem test_decode_classes :
    decodeWord 0b01000000000000#14 0#32 = .ok .frame ∧ decodeWord 0b01101011001101#14 0#32 = .ok .frame ∧
    decodeWord 0b10000000000000#14 0#32 = .ok .reset ∧ decodeWord 0b10111111111111#14 0#32 = .ok .reset ∧
    decodeWord 0b11000000000000#14 0#32 = .error .notAnEvent := by
  refine ⟨?_, ?_, ?_, ?_, ?_⟩ <;> decide

/-- Words of 95_test_vectors.md P2 line 13 and P4 lines 22, 24 and 29, and a word of class 3, as the opcode table numbers them. -/
theorem test_decode_table_words :
    decodeTableWord 16 0x081F = some (.wrPage 1#7 0#32) ∧ decodeTableWord 16 0x0C00 = some (.wrTest 0#6 0#4 0#32) ∧
    decodeTableWord 16 0x0400 = some (.rdTest 0#6 0#4) ∧ decodeTableWord 16 0x040E = some (.rdIrqv 64#7) ∧
    decodeTableWord 16 0x3000 = none := by
  refine ⟨?_, ?_, ?_, ?_, ?_⟩ <;> decide

/-- The bytes of `WR CONTROL, 0x0000C128` on page 5 (R80's example), and a write cut short. -/
theorem test_decode_bytes :
    decode [0x50#8, 0x08#8, 0x28#8, 0xC1#8, 0x00#8, 0x00#8, 0xAA#8] = .ok (.wrControl 0#1 5#5 0xC128#32, [0xAA#8]) ∧
    decode [0x50#8, 0x08#8, 0x28#8] = .error .truncated ∧ decode [0x50#8, 0x48#8] = .error .paddingSet := by
  refine ⟨?_, ?_, ?_⟩ <;> decide

/-! ### A small machine -/

/-- The spec's default parameters with a `K_SHIFT` and a clock that are numbers. -/
def params (k : KShift) : Params := { Params.reset with masterClock := 16000000, kShift := k }

/-- The machine with this block, region 0 as given, and these events issued. -/
def machine (k : KShift) (c : Chip) (r : Option Region) (input : List Event) : State where
  chip := c
  memory := Memory.setRegion (Vector.replicate 4 none) 0#2 r
  params := params k
  input := input
  output := .nothing
  draws := 0

/-- The reset block with voice 0 as given. -/
def one (v : Voice) : Chip := Chip.reset.setVoice 0#5 v

/-- Little-endian 16-bit samples 1000, 2000, 3000, 4000 (R222). -/
def fourSamples : Region := Region.ofBytes [0xE8#8, 0x03#8, 0xD0#8, 0x07#8, 0xB8#8, 0x0B#8, 0xA0#8, 0x0F#8]

/-- Voice 0 of R222. -/
def playing : Voice :=
  { Voice.reset with
    control := 0x0300#16, start := 0#32, endPos := 0x1800#32
    accumulator := 0x0400#32, freqcount := 0x0800#32
    leftVolume := 0xFFFF#16, rightVolume := 0x8000#16, k1 := 0x4000#16, k2 := 0x4000#16 }

/-- What a step leaves, the given state where it gives none. -/
def after (r : Result) (s : State) : State :=
  match r with
  | .next t => t
  | .fault _ => s
  | .refused _ => s

/-- What a state shows after one step. -/
def stepped (s : State) : State := after (step s) s

/-! ### One event at a time -/

/-- R80's example. -/
theorem test_wr_control :
    (stepped (machine .two { Chip.reset with currentPage := 5#7 } none [.wr 0#4 0x0000C128#32])).voice 5#5 =
      { Voice.reset with control := 0xC128#16 } := by decide

/-- R86's and R87's example: a ramp of -1 reads `0x000000FF`. -/
theorem test_rd_ramp :
    (stepped (machine .two (one { Voice.reset with leftRamp := 0xFF#8 }) none [.rd 3#4])).output = .data 0x000000FF#32 := by
  decide

/-- R84: `0x10000` stores 0 in a volume. -/
theorem test_wr_volume_cut :
    ((stepped (machine .two (one playing) none [.wr 2#4 0x10000#32])).voice 0#5).leftVolume = 0#16 := by decide

/-- R67: a position is cut by `ACCUM_MASK`. -/
theorem test_wr_start_masked :
    ((after (exec (.wrStart 0#5 0xFFFFFFFF#32)
      { machine .two Chip.reset none [] with params := { params .two with accumWidth := .low31 } }) State.reset).voice
        0#5).start = 0x7FFFFFFF#32 := by decide

/-- R128's example: page 32, `WR @11, 31` does not change the count. -/
theorem test_reserved_high_view :
    (stepped (machine .two { Chip.reset with currentPage := 32#7 } none [.wr 11#4 31#32])).chip.activeVoices = 0#5 := by
  decide

/-- P4 line 29: an acknowledge from a test page returns the voice and frees the latch. -/
theorem test_rd_irqv :
    let t := stepped (machine .two { Chip.reset with currentPage := 64#7, irqVector := 2#8, irqLine := true } none [.rd 14#4])
    t.output = .data 2#32 ∧ t.chip.irqVector = 0x80#8 ∧ t.chip.irqLine = false := by decide

/-- P1: `WR PAGE` keeps seven bits. -/
theorem test_wr_page :
    (stepped (machine .two Chip.reset none [.wr 15#4 0xFFFFFFA1#32])).chip.currentPage = 0x21#7 := by decide

/-- R222, FRAME 1. -/
theorem test_frame_output :
    (stepped (machine .none (one playing) (some fourSamples) [.frame])).output = .audio 1500 750 := by decide

/-- R222, FRAME 1: the step, and the transparent filter's taps. -/
theorem test_frame_voice :
    (stepped (machine .none (one playing) (some fourSamples) [.frame])).voice 0#5 =
      { playing with accumulator := 0x0C00#32, o1 := 1500#32, o2 := 1500#32, o3 := 1500#32, o4 := 1500#32 } := by decide

/-- R222, FRAME 3: a one-shot voice steps past its end, stops, and keeps the overshot position. -/
theorem test_frame_one_shot_end :
    let t := stepped (machine .none (one { playing with accumulator := 0x1400#32 }) (some fourSamples) [.frame])
    t.output = .audio 3500 1750 ∧ (t.voice 0#5).control = 0x0301#16 ∧ (t.voice 0#5).accumulator = 0x1C00#32 := by decide

/-- R155, R146, R233, as P1's FRAME 17: the completion of a one-shot voice is latched and its flag cleared. -/
theorem test_frame_latches :
    let t := stepped (machine .none (one { playing with
      control := 0x0320#16, endPos := 0x1000#32, accumulator := 0x1000#32 }) (some fourSamples) [.frame])
    (t.voice 0#5).control = 0x0321#16 ∧ t.chip.irqVector = 0#8 ∧ t.chip.irqLine = true := by decide

/-- P4, FRAME 26: a trans-wave wrap on an unmapped region is silent, keeps the taps, and leaves `LOOP` 0 and `LEI` 1. -/
theorem test_frame_trans_wave_unmapped :
    let v := { playing with
      control := 0x8330#16, start := 0x800#32, accumulator := 0x1000#32, freqcount := 0x1000#32, o1 := 0xFFFFFF9C#32 }
    let t := stepped (machine .none (one v) (some fourSamples) [.frame])
    t.output = .audio 0 0 ∧ t.voice 0#5 = { v with control := 0x8324#16 } := by decide

/-- P3, line 23: a bow-tie reflection at `end`. -/
theorem test_bow_tie_reflects :
    (Voice.advance 0xFFFFFFFF#32 { playing with
      control := 0x0318#16, start := 0x1000#32, endPos := 0x2000#32, accumulator := 0x1E00#32, freqcount := 0x400#32 }) =
    some { playing with
      control := 0x0358#16, start := 0x1000#32, endPos := 0x2000#32, accumulator := 0x1E00#32, freqcount := 0x400#32 } := by
  decide

/-- P2, line 19: a tick clamps both volumes and moves `k1` once. -/
theorem test_tick :
    (Voice.envelope { playing with
      leftVolume := 100#16, rightVolume := 65500#16, leftRamp := 0x80#8, rightRamp := 0x7F#8, k1 := 0xFFFF#16, k1Ramp := 0xFF#8
      envelopeCount := 1#16 }) =
    { playing with
      leftVolume := 0#16, rightVolume := 65535#16, leftRamp := 0x80#8, rightRamp := 0x7F#8, k1 := 0xFFFE#16, k1Ramp := 0xFF#8
      envelopeCount := 0#16, filtcount := 1#3 } := by decide

/-- R176 and P2: u-law bytes `8F`, `AF`, `2F`, `0F`, `FF`. -/
theorem test_ulaw :
    (g711 0x8F#8).toInt = 16764 ∧ (g711 0xAF#8).toInt = 4092 ∧ (g711 0x2F#8).toInt = -4092 ∧
    (g711 0x0F#8).toInt = -16764 ∧ (g711 0xFF#8).toInt = 0 ∧ (g711 0x00#8).toInt = -32124 := by decide

/-- P2, line 18: four poles with `c = 16383` from zero taps. -/
theorem test_filter_poles :
    Voice.poles .two { playing with k1 := 0xFFFF#16, k2 := 0xFFFF#16 } 4092 = ⟨4091, 4090, 4089, 4088⟩ := by decide

/-- P2, line 18: the volume law. -/
theorem test_volume : volScale .linear16 4088 100#16 = 6 ∧ volScale .linear16 4088 65500#16 = 4085 := by decide

/-- R260: `RESET` leaves the memory. -/
theorem test_reset :
    let t := stepped (machine .two { one playing with irqVector := 3#8, irqLine := true, mode := 7#8 } (some fourSamples) [.reset])
    t.chip = Chip.reset ∧ Memory.region t.memory 0#2 = some fourSamples := by decide

/-- U3: a running bow-tie voice with `start > end` that crosses is refused. -/
theorem test_bow_tie_refused :
    step (machine .none (one { playing with control := 0x0318#16, start := 0x1801#32, accumulator := 0x1900#32 }) none [.frame]) =
      .refused .bowTieChain := by rfl

/-! ### Witnesses: states and operands that meet the hypotheses of the statements -/

/-- A bow-tie voice, forward, one step short of its end. -/
def bowTie : Voice :=
  { playing with
    control := 0x0318#16, start := 0x1000#32, endPos := 0x2000#32, accumulator := 0x1E00#32, freqcount := 0x400#32 }

/-- The refused configuration (U3). -/
def refused : Voice := { playing with control := 0x0318#16, start := 0x1801#32, accumulator := 0x1900#32 }

/-- Voice 0 plays, voice 1 waits with its flag set. -/
def waiting : Chip :=
  { one playing with activeVoices := 1#5 }.setVoice 1#5 { Voice.reset with control := 0x0083#16 }

/-- A FRAME's machine. -/
def framing : State := machine .none waiting (some fourSamples) []

theorem test_witness_DecodeOfEncodeIsTheEvent :
    (Instr.wrTest 63#6 13#4 0xFFFFFFFF#32).wf = true ∧ (Instr.rdControl 1#1 31#5).wf = true ∧ Instr.frame.wf = true := by
  decide

theorem test_witness_EveryEventWordIsClassified :
    EventWord.cls 0x3FFF#14 = 3#2 ∧ EventWord.cls 0x2FFF#14 = 2#2 ∧ EventWord.cls 0x1FFF#14 = 1#2 ∧
    EventWord.cls 0x0FFF#14 = 0#2 ∧ EventWord.wr 0x0FFF#14 = 1#1 ∧ EventWord.wr 0x07FF#14 = 0#1 := by decide

theorem test_witness_StepRunsTheDecodedEvent :
    (machine .none waiting none [.wr 1#4 5#32]).input = [.wr 1#4 5#32] ∧
    decode (Event.bytes 0#7 (.wr 1#4 5#32)) = .ok (.wrFreqcount 0#5 5#32, []) ∧ (machine .none waiting none []).input = [] := by
  refine ⟨rfl, ?_, rfl⟩
  decide

theorem test_witness_RegisterMapOfEveryPage :
    (BitVec.toNat 0#7 = BitVec.toNat 0#5 ∧ BitVec.toNat 31#7 = BitVec.toNat 31#5) ∧
    (BitVec.toNat 32#7 = 32 + BitVec.toNat 0#5 ∧ BitVec.toNat 63#7 = 32 + BitVec.toNat 31#5) ∧
    (64 ≤ BitVec.toNat 64#7 ∧ 64 ≤ BitVec.toNat 127#7) ∧ BitVec.toNat 13#4 ≤ 13 ∧
    (lowViewMap 31#5 0#32).length = 28 ∧ (highViewMap 31#5 0#32).length = 28 ∧ (everyPageMap 127#7 0#32).length = 4 := by
  decide

theorem test_witness_TestPagesAreStubs :
    64 ≤ (machine .none { waiting with currentPage := 64#7 } none []).chip.currentPage.toNat ∧
    64 ≤ (machine .none { waiting with currentPage := 127#7 } none []).chip.currentPage.toNat ∧
    BitVec.toNat 0#4 ≤ 13 ∧ BitVec.toNat 13#4 ≤ 13 := by decide

theorem test_witness_VectorReadAcknowledges :
    (machine .none waiting none []).chip.irqVector = 0x80#8 ∧ (machine .none waiting none []).chip.irqLine = false := by
  decide

theorem test_witness_RegistersReadBackWhatWasWritten :
    (machine .none { waiting with currentPage := 31#7 } none []).chip.currentPage.toNat = BitVec.toNat 31#5 ∧
    (machine .none { waiting with currentPage := 63#7 } none []).chip.currentPage.toNat = 32 + BitVec.toNat 31#5 := by decide

theorem test_witness_InitialBlockIsTheResetBlock : exec .reset framing = .next { framing with chip := Chip.reset } := rfl

theorem test_witness_ResetBlockStaysSilent : (machine .none Chip.reset (some fourSamples) []).chip = Chip.reset := rfl

/-- A state with the invariant: playing voices, a region mapped, a `WR` and then a FRAME to take. -/
theorem test_witness_StepKeepsTheInvariant :
    let s := machine .none { waiting with irqVector := 31#8, irqLine := true } (some fourSamples) [.wr 1#4 5#32]
    s.Inv ∧ ∃ t, step s = .next t := by
  refine ⟨⟨?_, Or.inr ⟨by decide, rfl⟩, by decide, by decide, by decide, by decide⟩, _, rfl⟩
  unfold Voice.Within
  decide

theorem test_witness_NoEventWritesMemoryOrParameters :
    ∃ t, step (machine .none waiting (some fourSamples) [.frame]) = .next t := ⟨_, rfl⟩

theorem test_witness_NoEventRaisesAnything :
    (machine .none waiting none [.rd 14#4]).input = [.rd 14#4] ∧ Event.rd 14#4 ≠ .frame ∧
    (machine .none waiting none [.frame]).input = [.frame] := ⟨rfl, by decide, rfl⟩

theorem test_witness_FrameCompletesUnlessNoMeaning :
    (∀ i : VoiceIx, framing.chip.Services i → ¬ (framing.voice i).NoMeaning (posMask framing.params)) ∧
    ((one refused).Services 0#5 ∧ ((one refused).voice 0#5).NoMeaning 0xFFFFFFFF#32) := by
  unfold Chip.Services Voice.NoMeaning
  decide

theorem test_witness_FrameIsTheSumOfItsVoices :
    (∃ t, exec .frame framing = .next t) ∧ framing.chip.Services 1#5 ∧ ¬ framing.chip.Services 2#5 := by
  refine ⟨⟨_, rfl⟩, ?_⟩
  unfold Chip.Services
  decide

theorem test_witness_FrameLeavesUnservicedVoices :
    (∃ t, exec .frame framing = .next t) ∧ ¬ framing.chip.Services 31#5 := by
  refine ⟨⟨_, rfl⟩, ?_⟩
  unfold Chip.Services
  decide

theorem test_witness_FrameNeverWritesHostRegisters :
    let s := machine .none (waiting.setVoice 2#5 { playing with control := 0x0004#16 }) (some fourSamples) []
    (∃ t, exec .frame s = .next t) ∧ (s.voice 1#5).stop0 = true ∧ (s.voice 2#5).lei = true :=
  ⟨⟨_, rfl⟩, by decide, by decide⟩

theorem test_witness_StoppedAndDegenerateVoices :
    let v := { playing with control := 0x0002#16 }
    (v.start ≠ v.endPos ∧ v.stopped = true) ∧ Voice.reset.start = Voice.reset.endPos := by decide

/-- Region 0 mapped, and not mapped. -/
theorem test_witness_RunningVoiceSoundsThenAdvances :
    playing.stopped = false ∧ playing.start ≠ playing.endPos ∧
    Memory.region framing.memory playing.bs = some fourSamples ∧
    Memory.region (machine .none waiting none []).memory playing.bs = none ∧
    ∃ w, playing.advance 0xFFFFFFFF#32 = some w := ⟨by decide, by decide, by decide, by decide, _, rfl⟩

theorem test_witness_PageDoesNotReachTheAudio : ∃ t, exec .frame framing = .next t := ⟨_, rfl⟩

theorem test_witness_NativeRateOfTheCount :
    let s := machine .none { waiting with activeVoices := 31#5 } none []
    let t := machine .none Chip.reset none []
    s.params.masterClock = t.params.masterClock ∧ s.chip.activeVoices = 31#5 ∧ t.chip.activeVoices = 0#5 := by decide

theorem test_witness_DefaultVolumeLaw : BitVec.toNat 0x7FFF#16 < 32768 := by decide

theorem test_witness_DefaultVolumeNeverAmplifies :
    (0 : Int) ≤ 32767 ∧ (-32768 : Int) ≤ 0 ∧ BitVec.toNat 0x7FFF#16 ≤ BitVec.toNat 0x8000#16 := by decide

/-- Modes 2 and 3, taps at both bounds. -/
theorem test_witness_FrameOutputIsBounded :
    let v := { playing with control := 0x0200#16, o1 := 0x7FFF#32, o4 := 0xFFFF8000#32 }
    let s := machine .two ({ one v with activeVoices := 1#5 }.setVoice 1#5 playing) (some fourSamples) []
    s.params.kShift = .two ∧ s.params.volLaw = .linear16 ∧
    (∀ i : VoiceIx, s.chip.Services i → (s.voice i).AllLowPass ∧ (s.voice i).SmallTaps) ∧
    ∃ t l r, exec .frame s = .next t ∧ t.output = .audio l r := by
  refine ⟨rfl, rfl, ?_, _, _, _, rfl, rfl⟩
  unfold Chip.Services Voice.AllLowPass Voice.SmallTaps Fits16
  decide

theorem test_witness_StepMovesThePosition :
    playing.dir = false ∧ { playing with control := 0x0340#16 }.dir = true := by decide

theorem test_witness_NoCrossingPlaysOn :
    { playing with control := 0x0304#16 }.lei = true ∧ ¬ (playing.stepPosition 0xFFFFFFFF#32).Crosses ∧
    ¬ ({ playing with control := 0x0340#16, freqcount := 0x0400#32 }.stepPosition 0xFFFFFFFF#32).Crosses := by
  unfold Voice.Crosses
  decide

theorem test_witness_OneShotCrossingStops :
    let f := { playing with accumulator := 0x1001#32 }
    let r := { playing with control := 0x0360#16, start := 0x0800#32, accumulator := 0x0FFF#32 }
    (f.lei = false ∧ f.loopMode = .oneShot ∧ (f.stepPosition (accumMask .full32)).Crosses) ∧
    (r.lei = false ∧ r.loopMode = .oneShot ∧ (r.stepPosition (accumMask .low31)).Crosses) := by
  unfold Voice.Crosses
  decide

theorem test_witness_UniLoopCrossingWraps :
    let f := { playing with control := 0x0308#16, accumulator := 0x1001#32 }
    let r := { playing with control := 0x0348#16, start := 0x0800#32, accumulator := 0x0FFF#32 }
    (f.lei = false ∧ f.loopMode = .uni ∧ (f.stepPosition (accumMask .full32)).Crosses) ∧
    (r.lei = false ∧ r.loopMode = .uni ∧ (r.stepPosition (accumMask .low31)).Crosses) := by
  unfold Voice.Crosses
  decide

theorem test_witness_TransWaveCrossingWrapsOnce :
    let f := { playing with control := 0x0330#16, accumulator := 0x1001#32 }
    let r := { playing with control := 0x0350#16, start := 0x0800#32, accumulator := 0x0FFF#32 }
    (f.lei = false ∧ f.loopMode = .transWave ∧ (f.stepPosition (accumMask .full32)).Crosses) ∧
    (r.lei = false ∧ r.loopMode = .transWave ∧ (r.stepPosition (accumMask .low31)).Crosses) := by
  unfold Voice.Crosses
  decide

/-- Both directions, the overshoot exactly `end - start` forward. -/
theorem test_witness_BowTieCrossingReflects :
    let f := { bowTie with freqcount := 0x1200#32 }
    let r := { bowTie with control := 0x0358#16, accumulator := 0x1001#32 }
    (f.lei = false ∧ f.loopMode = .bowTie ∧ f.dir = false ∧ f.Within (accumMask .full32) ∧ f.start.toNat < f.endPos.toNat ∧
      (f.stepPosition (accumMask .full32)).Crosses ∧
      (f.stepPosition (accumMask .full32)).overshoot = f.endPos.toNat - f.start.toNat) ∧
    (r.lei = false ∧ r.loopMode = .bowTie ∧ r.dir = true ∧ r.Within (accumMask .low31) ∧ r.start.toNat < r.endPos.toNat ∧
      (r.stepPosition (accumMask .low31)).Crosses ∧
      (r.stepPosition (accumMask .low31)).overshoot ≤ r.endPos.toNat - r.start.toNat) := by
  unfold Voice.Crosses Voice.Within
  decide

/-- The pitch exactly the loop, the position at `end`, and the largest end the mask admits. -/
theorem test_witness_UniLoopNeverDrifts :
    let v := { playing with
      control := 0x0308#16, start := 0xFFFFDFFF#32, endPos := 0xFFFFEFFF#32, accumulator := 0xFFFFEFFF#32
      freqcount := 0x1000#32 }
    v.lei = false ∧ v.dir = false ∧ v.loopMode = .uni ∧ v.start.toNat < v.endPos.toNat ∧
    v.freqcount.toNat ≤ v.endPos.toNat - v.start.toNat ∧ v.start.toNat ≤ v.accumulator.toNat ∧
    v.accumulator.toNat ≤ v.endPos.toNat ∧ v.endPos.toNat + v.freqcount.toNat ≤ (accumMask .full32).toNat := by decide

/-- The largest step the statement covers, `end - start + 1`, and the smallest, 2. -/
theorem test_witness_BowTieIsSymmetric :
    let v := { bowTie with accumulator := 0x1FFF#32, freqcount := 0x1001#32 }
    v.lei = false ∧ v.dir = false ∧ v.loopMode = .bowTie ∧ v.start.toNat < v.endPos.toNat ∧
    v.accumulator.toNat = v.endPos.toNat - 1 ∧ 1 < v.freqcount.toNat ∧
    v.freqcount.toNat = v.endPos.toNat - v.start.toNat + 1 ∧
    v.endPos.toNat - 1 + v.freqcount.toNat ≤ (accumMask .low31).toNat ∧ 1 < BitVec.toNat 2#32 := by decide

/-- A pitch larger than the loop, as large as `start` admits. -/
theorem test_witness_BowTieNeverDrifts :
    let v := { bowTie with start := 0x1F00#32, endPos := 0x2000#32, accumulator := 0x2000#32, freqcount := 0x1F00#32 }
    v.lei = false ∧ v.loopMode = .bowTie ∧ v.start.toNat < v.endPos.toNat ∧ v.start.toNat ≤ v.accumulator.toNat ∧
    v.accumulator.toNat ≤ v.endPos.toNat ∧ v.freqcount.toNat ≤ v.start.toNat ∧
    v.endPos.toNat + v.freqcount.toNat ≤ (accumMask .low31).toNat := by decide

/-- A count of 2: one run before the tick, then the tick, then none. -/
theorem test_witness_EnvelopeTicksOnce :
    let v := { playing with envelopeCount := 2#16 }
    1 < v.envelopeCount.toNat ∧ 0 < v.envelopeCount.toNat ∧ v.envelopeCount.toNat ≤ 2 ∧ playing.envelopeCount = 0#16 := by
  decide

theorem test_witness_VolumeRampsClamp : playing.leftRamp = 0#8 ∧ playing.rightRamp = 0#8 := by decide

theorem test_witness_CoefficientsRampAtOneEighth :
    playing.filtcount = 0#3 ∧ { playing with filtcount := 7#3 }.filtcount ≠ 0#3 := by decide

/-- Eight bytes: the last byte and the first beyond, the last pair and the first beyond. -/
theorem test_witness_RegionReads :
    7 < fourSamples.len ∧ fourSamples.len ≤ 8 ∧ 2 * 3 + 1 < fourSamples.len ∧ fourSamples.len ≤ 2 * 4 + 1 := by decide

theorem test_witness_PlatformStoreIsReadBack :
    Memory.wf framing.memory = true ∧ Memory.region framing.memory 0#2 = some fourSamples ∧ 7 < fourSamples.len := by decide

/-- Both formats, the second sample the last one of the region. -/
theorem test_witness_FetchTakesTwoNeighbours :
    let u := { playing with control := 0x2300#16 }
    Memory.region framing.memory playing.bs = some fourSamples ∧ playing.cmpd = false ∧
    2 * (playing.exbank.toNat + BitVec.toNat 0x1000#32 / 2048) + 1 < fourSamples.len ∧
    2 * (playing.exbank.toNat + ((0x1000#32 + 0x800#32) &&& posMask (params .none)).toNat / 2048) + 1 < fourSamples.len ∧
    Memory.region framing.memory u.bs = some fourSamples ∧ u.cmpd = true ∧
    u.exbank.toNat + BitVec.toNat 0x3000#32 / 2048 < fourSamples.len ∧
    u.exbank.toNat + ((0x3000#32 + 0x800#32) &&& posMask (params .none)).toNat / 2048 < fourSamples.len := by decide

theorem test_witness_DefaultUlawTable : 0x80#8 < 0x81#8 ∧ 0x80#8 < 0xFF#8 := by decide

theorem test_witness_InterpolationIsBetween : BitVec.toNat 0x1800#32 % 2048 = 0 := by decide

/-- The four values of `LP` from one set of taps with coefficients 1/2: 1000 in, taps 0. -/
theorem test_witness_FilterPolesByMode :
    let v := { playing with control := 0x0000#16, k1 := 0x2000#16, k2 := 0x2000#16 }
    (coefficient .none v.k1 = 8192 ∧ coefficient .none v.k2 = 8192) ∧
    (v.lp = 0#2 ∧ { v with control := 0x0100#16 }.lp = 1#2 ∧ { v with control := 0x0200#16 }.lp = 2#2 ∧
      { v with control := 0x0300#16 }.lp = 3#2) ∧
    Voice.poles .none v 1000 = ⟨500, 250, 250, 250⟩ ∧
    Voice.poles .none { v with control := 0x0100#16 } 1000 = ⟨500, 250, 125, 125⟩ ∧
    Voice.poles .none { v with control := 0x0200#16 } 1000 = ⟨500, 250, 125, 62⟩ ∧
    Voice.poles .none { v with control := 0x0300#16 } 1000 = ⟨500, 250, 125, 62⟩ ∧
    ∀ y ∈ [(500 : Int), 250, 125, 62], -2 ^ 31 ≤ y ∧ y < 2 ^ 31 := by decide

theorem test_witness_LowPassCornerCases : (0 : Int) ≤ 0 ∧ (0 : Int) ≤ 16384 ∧ (16384 : Int) ≤ 16384 := by decide

theorem test_witness_LowPassModesStaySmall :
    let v := { playing with control := 0x0200#16, o1 := 0x7FFF#32, o2 := 0xFFFF8000#32 }
    v.AllLowPass ∧ playing.AllLowPass ∧ v.SmallTaps ∧ Fits16 (-32768) ∧ Fits16 32767 := by
  unfold Voice.AllLowPass Voice.SmallTaps Fits16
  decide

theorem test_witness_TransparentFilter :
    playing.AllLowPass ∧ playing.k1 = 0x4000#16 ∧ playing.k2 = 0x4000#16 ∧ Fits16 (-32768) := by
  unfold Voice.AllLowPass Fits16
  decide

/-- A free latch with voice 1 waiting behind voice 0, a busy latch, and nobody waiting. -/
theorem test_witness_ScanLatchesTheLowestVoice :
    (waiting.idle = true ∧ BitVec.toNat 1#5 < 2 ∧ (waiting.voice 1#5).irq = true ∧
      ∀ j : VoiceIx, j.toNat < BitVec.toNat 1#5 → (waiting.voice j).irq = false) ∧
    { waiting with irqVector := 31#8, irqLine := true }.idle = false ∧
    (∀ i : VoiceIx, i.toNat < 32 → ((one playing).voice i).irq = false) := by decide

/-- A free latch takes the waiting voice; a busy one leaves it waiting. -/
theorem test_witness_CompletionIsNeverLost :
    (∃ t, exec .frame framing = .next t) ∧ (framing.voice 1#5).irq = true ∧
    let s := machine .none { waiting with irqVector := 0#8, irqLine := true } (some fourSamples) []
    (∃ t, exec .frame s = .next t) ∧ (s.voice 1#5).irq = true := ⟨⟨_, rfl⟩, by decide, ⟨_, rfl⟩, by decide⟩

/-- Pending through a `WR` and through a FRAME; the line rising at a FRAME; falling at an acknowledge and at a RESET. -/
theorem test_witness_LatchChangesOnlyWhereAllowed :
    let pending := { waiting with irqVector := 0#8, irqLine := true }
    (∃ t, step (machine .none pending none [.wr 14#4 0#32]) = .next t ∧ pending.idle = false) ∧
    (∃ t, step (machine .none pending (some fourSamples) [.frame]) = .next t) ∧
    (∃ t, step (machine .none waiting (some fourSamples) [.frame]) = .next t ∧ waiting.irqLine = false ∧ t.chip.irqLine = true) ∧
    (∃ t, step (machine .none pending none [.rd 14#4]) = .next t ∧ pending.irqLine = true ∧ t.chip.irqLine = false) ∧
    (∃ t, step (machine .none pending none [.reset]) = .next t ∧ t.chip.irqLine = false) :=
  ⟨⟨_, rfl, by decide⟩, ⟨_, rfl⟩, ⟨_, rfl, by decide, by decide⟩, ⟨_, rfl, by decide, by decide⟩, ⟨_, rfl, by decide⟩⟩

/-- Two machines that differ in a waiting flag, the vector and the line, and nothing else. -/
theorem test_witness_AudioIgnoresInterrupts :
    State.SameButInterrupts framing
      { framing with
        chip := { framing.chip with irqVector := 3#8, irqLine := true }.setVoice 1#5 { Voice.reset with control := 0x0003#16 } } ∧
    framing.voice 1#5 = { Voice.reset with control := 0x0083#16 } := by
  unfold State.SameButInterrupts
  decide

end Sys2Proof.Tests
end

section
/-! PROOFS. The family of spec/10_state.md: the invariant of R39 at reset and over every step, and what a FRAME never writes in a voice
(R11, R14, R17, R22). -/

namespace Sys2Proof.Machine

/-! ### Positions within `ACCUM_MASK` (R25, R39) -/

/-- A position as a `WR` stores it is within the mask (R67). -/
theorem cutPosition_masked (p : Params) (value : Word) : cutPosition p value &&& posMask p = cutPosition p value :=
  and_mask_mask value (posMask p)

theorem Voice.reset_within (m : Word) : Voice.reset.Within m :=
  ⟨BitVec.zero_and, BitVec.zero_and, BitVec.zero_and⟩

/-! ### The latch agrees with the line (R36, R37, R235) -/

theorem Chip.reset_latchOk : Chip.reset.LatchOk := .inl ⟨rfl, rfl⟩

theorem Chip.latchOk_acknowledge (c : Chip) : c.acknowledge.LatchOk := .inl ⟨rfl, rfl⟩

theorem Chip.latchOk_latch (c : Chip) (i : VoiceIx) : (c.latch i).LatchOk := by
  have index_le : ∀ i : VoiceIx, (i.setWidth 8 : Byte).toNat ≤ 31 := by decide
  exact .inr ⟨index_le i, rfl⟩

/-- Whether the latch is legal depends on the vector and the line alone. -/
theorem Chip.LatchOk.congr {c d : Chip} (h : c.LatchOk) (hv : d.irqVector = c.irqVector) (hl : d.irqLine = c.irqLine) :
    d.LatchOk := by
  unfold Chip.LatchOk
  rw [hv, hl]
  exact h

theorem Chip.LatchOk.scanBelow {c : Chip} (h : c.LatchOk) {n : Nat} (hn : n ≤ 32) : (c.scanBelow n).LatchOk := by
  rcases Chip.scanBelow_cases c n hn with e | ⟨i, -, -, -, e⟩ <;> rw [e]
  · exact h
  · exact Chip.latchOk_latch c i

/-! ### The properties of a voice that a FRAME keeps

A FRAME writes a voice by seven operations only, so a property that each of them keeps is kept by a FRAME. -/

/-- Every operation by which a FRAME writes a voice keeps `P`; `m` is `ACCUM_MASK`. -/
structure Voice.KeptByFrame (m : Word) (P : Voice → Prop) : Prop where
  setStop0 : ∀ v, P v → P v.setStop0
  setIrq : ∀ v b, P v → P (v.setIrq b)
  flipDir : ∀ v, P v → P v.flipDir
  endTransWave : ∀ v, P v → P v.endTransWave
  position : ∀ (v : Voice) (x : Word), P v → P { v with accumulator := x &&& m }
  setTaps : ∀ v w1 w2 w3 w4, P v → P (Voice.setTaps v w1 w2 w3 w4)
  envelope : ∀ v, P v → P v.envelope

section
variable {m : Word} {P : Voice → Prop}

theorem Voice.KeptByFrame.stepPosition (k : KeptByFrame m P) (v : Voice) (h : P v) : P (v.stepPosition m) := by
  unfold Voice.stepPosition
  split <;> exact k.position v _ h

theorem Voice.KeptByFrame.noteCompletion (k : KeptByFrame m P) (v : Voice) (h : P v) : P v.noteCompletion := by
  unfold Voice.noteCompletion
  split
  · exact k.setIrq v true h
  · exact h

theorem Voice.KeptByFrame.wrap (k : KeptByFrame m P) (v : Voice) (h : P v) : P (v.wrap m) := by
  unfold Voice.wrap
  split <;> exact k.position v _ h

theorem Voice.KeptByFrame.reflect (k : KeptByFrame m P) (v : Voice) (h : P v) : P (v.reflect m) := by
  unfold Voice.reflect
  split <;> exact k.flipDir _ (k.position v _ h)

theorem Voice.KeptByFrame.degenerateCheck (k : KeptByFrame m P) (v : Voice) (h : P v) : P v.degenerateCheck := by
  unfold Voice.degenerateCheck
  split
  · exact k.setStop0 v h
  · exact h

theorem Voice.KeptByFrame.sound (k : KeptByFrame m P) (p : Params) (mem : Memory) (v : Voice) (d : Nat) (h : P v) :
    P (v.sound p mem d).voice := by
  rcases Voice.sound_voice p mem v d with e | ⟨w1, w2, w3, w4, e⟩ <;> rw [e]
  · exact h
  · exact k.setTaps v w1 w2 w3 w4 h

theorem Voice.KeptByFrame.advance (k : KeptByFrame m P) {v w : Voice} (hw : v.advance m = some w) (h : P v) : P w := by
  obtain ⟨u, hu, rfl⟩ := Voice.advance_eq_some.1 hw
  have hP : P u :=
    Voice.boundary_keeps k.noteCompletion k.setStop0 k.wrap k.endTransWave k.reflect hu (k.stepPosition v h)
  exact k.envelope u hP

theorem Voice.KeptByFrame.service {p : Params} (k : KeptByFrame (posMask p) P) {mem : Memory} {v : Voice} {d : Nat}
    {r : Serviced} (hr : v.service p mem d = some r) (h : P v) : P r.voice := by
  rcases Voice.service_cases hr with ⟨-, rfl⟩ | ⟨-, -, hadv, -⟩
  · exact k.degenerateCheck v h
  · exact k.advance hadv (k.sound p mem v d h)

/-- The voices of a FRAME: serviced or not, then scanned or not (R210). -/
theorem Voice.KeptByFrame.finishFrame {s : State} (k : KeptByFrame (posMask s.params) P) {x : Mix}
    (hx : Mix.serviceBelow s.params s.memory s.chip.servicedCount s.startMix = some x) (i : VoiceIx)
    (h : P (s.voice i)) : P ((s.finishFrame x).voice i) := by
  have hn := Chip.servicedCount_le s.chip
  obtain ⟨-, hAbove, hBelow⟩ := Mix.serviceBelow_spec hn hx
  have hServiced : P (x.chip.voice i) := by
    by_cases hi : i.toNat < s.chip.servicedCount
    · obtain ⟨d, r, hr, e⟩ := hBelow i hi
      rw [e]
      exact k.service hr h
    · rw [hAbove i (Nat.le_of_not_lt hi)]
      exact h
  rw [State.voice_eq, State.finishFrame_chip]
  rcases Chip.voice_scanBelow x.chip s.chip.servicedCount hn i with e | ⟨e, -⟩ <;> rw [e]
  · exact hServiced
  · exact k.setIrq _ false hServiced

end

/-- A FRAME writes no bound, and every position it writes is masked (R24, R142, R147, R149). -/
theorem Voice.keptByFrame_within (m : Word) : KeptByFrame m (fun v => v.Within m) where
  setStop0 _ h := h
  setIrq _ _ h := h
  flipDir _ h := h
  endTransWave _ h := h
  position _ x := fun ⟨hStart, hEnd, _⟩ => ⟨hStart, hEnd, and_mask_mask x m⟩
  setTaps _ _ _ _ _ h := h
  envelope v h := by
    unfold Voice.Within at h ⊢
    simpa using h

/-! ### What a completed event leaves -/

/-- `s.Effect t`: one of the seven things an event that completes can do to `s`. A voice is written with its positions cut to the mask
(R67); a write to a chip-global register reaches neither a voice nor the latch. -/
inductive State.Effect (s : State) : State → Prop
  | ignored : s.Effect s.ignoreWrite
  | answered (value : Word) : s.Effect (s.answer value)
  | acknowledged (value : Word) : s.Effect { s.answer value with chip := s.chip.acknowledge }
  | voiceWritten (i : VoiceIx) (w : Voice)
      (within : (s.voice i).Within (posMask s.params) → w.Within (posMask s.params)) : s.Effect (s.writeVoice i w)
  | chipWritten (c : Chip) (voices : c.voices = s.chip.voices) (vector : c.irqVector = s.chip.irqVector)
      (line : c.irqLine = s.chip.irqLine) : s.Effect (s.writeChip c)
  | framed (x : Mix) (serviced : Mix.serviceBelow s.params s.memory s.chip.servicedCount s.startMix = some x) :
      s.Effect (s.finishFrame x)
  | wasReset : s.Effect { s with chip := Chip.reset, output := .nothing }

/-- Every event that completes has one of the effects, by its arm of `exec`. -/
theorem exec_effect {e : Instr} {s t : State} (h : exec e s = .next t) : s.Effect t := by
  cases e with
  | rdControl | rdFreqcount | rdLeftVolume | rdLeftRamp | rdRightVolume | rdRightRamp | rdEnvelopeCount | rdK2 | rdK2Ramp
  | rdK1 | rdK1Ramp | rdActiveVoices | rdMode | rdRsvdL13 | rdStart | rdEnd | rdAccumulator | rdO4 | rdO3 | rdO2 | rdO1
  | rdExbank | rdRsvdH9 | rdRsvdH10 | rdRsvdH11 | rdRsvdH12 | rdRsvdH13 | rdPage | rdTest =>
    cases h; exact .answered _
  | rdIrqv => cases h; exact .acknowledged _
  | wrRsvdL13 | wrRsvdH9 | wrRsvdH10 | wrRsvdH11 | wrRsvdH12 | wrRsvdH13 | wrIrqv | wrTest =>
    cases h; exact .ignored
  | wrControl | wrFreqcount | wrLeftVolume | wrLeftRamp | wrRightVolume | wrRightRamp | wrEnvelopeCount | wrK2 | wrK2Ramp
  | wrK1 | wrK1Ramp | wrO4 | wrO3 | wrO2 | wrO1 | wrExbank =>
    cases h; exact .voiceWritten _ _ id
  | wrStart => cases h; exact .voiceWritten _ _ fun ⟨_, hEnd, hAcc⟩ => ⟨cutPosition_masked _ _, hEnd, hAcc⟩
  | wrEnd => cases h; exact .voiceWritten _ _ fun ⟨hStart, _, hAcc⟩ => ⟨hStart, cutPosition_masked _ _, hAcc⟩
  | wrAccumulator => cases h; exact .voiceWritten _ _ fun ⟨hStart, hEnd, _⟩ => ⟨hStart, hEnd, cutPosition_masked _ _⟩
  | wrActiveVoices | wrMode | wrPage => cases h; exact .chipWritten _ rfl rfl rfl
  | frame =>
    obtain ⟨x, hx, rfl⟩ := execFrame_next h
    exact .framed x hx
  | reset => cases h; exact .wasReset

/-- A step that completes takes no event where none is issued, and otherwise has the effect of the first one (R50, R60). -/
theorem step_next {s t : State} (h : step s = .next t) :
    (s.input = [] ∧ t = s) ∨ ∃ e rest, s.input = e :: rest ∧ State.Effect { s with input := rest } t := by
  unfold step at h
  split at h
  · next hin =>
    cases h
    exact .inl ⟨hin, rfl⟩
  · next e rest hin =>
    split at h
    · exact .inr ⟨e, rest, hin, exec_effect h⟩
    · cases h

/-- No event writes the sample memory, the parameters or the events still to come (R41, R47, R262). -/
theorem State.Effect.sameSurroundings {s t : State} (h : s.Effect t) : s.SameSurroundings t := by
  cases h <;> exact ⟨rfl, rfl, rfl⟩

theorem State.Effect.within {s t : State} (h : s.Effect t) (hs : ∀ i, (s.voice i).Within (posMask s.params)) :
    ∀ i, (t.voice i).Within (posMask s.params) := by
  intro j
  cases h with
  | ignored | answered | acknowledged => exact hs j
  | voiceWritten i w within =>
    rw [State.voice_eq, State.writeVoice_chip, Chip.voice_setVoice]
    split
    · exact within (hs i)
    · exact hs j
  | chipWritten c voices =>
    have e : (s.writeChip c).voice j = s.voice j := by simp [State.voice, Chip.voice, voices]
    rw [e]
    exact hs j
  | framed x serviced => exact (Voice.keptByFrame_within _).finishFrame serviced j (hs j)
  | wasReset =>
    rw [State.voice_eq, Chip.voice_reset]
    exact Voice.reset_within _

theorem State.Effect.latchOk {s t : State} (h : s.Effect t) (hs : s.chip.LatchOk) : t.chip.LatchOk := by
  cases h with
  | ignored | answered => exact hs
  | acknowledged => exact Chip.latchOk_acknowledge s.chip
  | voiceWritten => exact hs.congr rfl rfl
  | chipWritten _ _ vector line => exact hs.congr vector line
  | framed x serviced =>
    have hn := Chip.servicedCount_le s.chip
    obtain ⟨⟨-, -, -, hVector, hLine⟩, -⟩ := Mix.serviceBelow_spec hn serviced
    exact (hs.congr hVector hLine).scanBelow hn
  | wasReset => exact Chip.reset_latchOk

/-! ### The invariant (R39) -/

theorem Params.reset_ok : ParamsOk Params.reset := ⟨Nat.succ_pos _, by decide, by decide⟩

theorem State.Effect.inv {s t : State} (h : s.Effect t) (hs : s.Inv) : t.Inv := by
  obtain ⟨hVoices, hLatch, hMemory, hParams⟩ := hs
  obtain ⟨eMemory, eParams, -⟩ := h.sameSurroundings
  unfold State.Inv
  rw [eMemory, eParams]
  exact ⟨h.within hVoices, h.latchOk hLatch, hMemory, hParams⟩

/-- Settles O18: the reset block has every position 0 and the Idle latch; no region is mapped; the parameters are the defaults. -/
theorem resetHasTheInvariant : Obligations.ResetHasTheInvariant := by
  refine ⟨fun i => ?_, Chip.reset_latchOk, State.reset_memory_wf, Params.reset_ok⟩
  have e : State.reset.voice i = Voice.reset := Chip.voice_reset i
  rw [e]
  exact Voice.reset_within _

/-- Settles O19, by the effects of the event the step takes. -/
theorem stepKeepsTheInvariant : Obligations.StepKeepsTheInvariant := by
  intro s t hs h
  rcases step_next h with ⟨-, rfl⟩ | ⟨e, rest, -, hEffect⟩
  · exact hs
  · exact hEffect.inv hs

/-! ### What a FRAME never writes in a voice (R11, R14, R17, R22) -/

/-- Writing a bit of `control` outside a mask does not show under the mask. -/
theorem setBit_and_of_clear (c : Half) {k : Nat} (b : Bool) {mask : Half} (hk : k < 16) (hm : mask.getLsbD k = false) :
    setBit c k b &&& mask = c &&& mask := by
  apply BitVec.eq_of_getLsbD_eq
  intro j _
  rw [BitVec.getLsbD_and, BitVec.getLsbD_and, getLsbD_setBit c k b j hk]
  split
  · next e => simp [e, hm]
  · rfl

theorem Voice.endTransWave_control_and {v : Voice} {mask : Half} (h2 : mask.getLsbD 2 = false)
    (h3 : mask.getLsbD 3 = false) (h4 : mask.getLsbD 4 = false) :
    v.endTransWave.control &&& mask = v.control &&& mask := by
  unfold Voice.endTransWave
  rw [setBit_and_of_clear _ _ (by decide) h2, setBit_and_of_clear _ _ (by decide) h4,
    setBit_and_of_clear _ _ (by decide) h3]

/-- `w` has the registers of `v` that only the host writes, and no stop flag or inhibit of `v` is cleared in it. The mask is bits 15:8,
5 and 1 of `control`. -/
structure Voice.HostKept (v w : Voice) : Prop where
  start : w.start = v.start
  endPos : w.endPos = v.endPos
  freqcount : w.freqcount = v.freqcount
  leftRamp : w.leftRamp = v.leftRamp
  rightRamp : w.rightRamp = v.rightRamp
  k1Ramp : w.k1Ramp = v.k1Ramp
  k2Ramp : w.k2Ramp = v.k2Ramp
  exbank : w.exbank = v.exbank
  control : w.control &&& 0xFF22#16 = v.control &&& 0xFF22#16
  stop0 : v.stop0 = true → w.stop0 = true
  lei : v.lei = true → w.lei = true

theorem Voice.HostKept.refl (v : Voice) : v.HostKept v := ⟨rfl, rfl, rfl, rfl, rfl, rfl, rfl, rfl, rfl, id, id⟩

/-- Of the bits a FRAME writes, 7, 6 and 4:3 are free to the hardware, and 2 and 0 are only ever set. -/
theorem Voice.keptByFrame_hostKept (m : Word) (v : Voice) : KeptByFrame m v.HostKept where
  setStop0 _ h := { h with
    control := (setBit_and_of_clear _ _ (by decide) (by decide)).trans h.control
    stop0 := fun _ => Voice.setStop0_stop0 _
    lei := fun hv => (Voice.setStop0_lei _).trans (h.lei hv) }
  setIrq _ _ h := { h with
    control := (setBit_and_of_clear _ _ (by decide) (by decide)).trans h.control
    stop0 := fun hv => (Voice.setIrq_stop0 _ _).trans (h.stop0 hv)
    lei := fun hv => (Voice.setIrq_lei _ _).trans (h.lei hv) }
  flipDir _ h := { h with
    control := (setBit_and_of_clear _ _ (by decide) (by decide)).trans h.control
    stop0 := fun hv => (Voice.flipDir_stop0 _).trans (h.stop0 hv)
    lei := fun hv => (Voice.flipDir_lei _).trans (h.lei hv) }
  endTransWave w h := { h with
    control := (Voice.endTransWave_control_and (by decide) (by decide) (by decide)).trans h.control
    stop0 := fun hv => (Voice.endTransWave_stop0 _).trans (h.stop0 hv)
    lei := fun _ => Voice.endTransWave_lei _ }
  position _ _ h := { h with }
  setTaps _ _ _ _ _ h := { h with }
  envelope w h := by
    obtain ⟨hs, he, hf, hl, hr, hk1, hk2, hx, hc, h0, hi⟩ := h
    constructor <;> simpa

/-- Settles O25, by the seven operations with which a FRAME writes a voice. -/
theorem frameNeverWritesHostRegisters : Obligations.FrameNeverWritesHostRegisters := by
  intro s t i h
  obtain ⟨x, hx, rfl⟩ := execFrame_next h
  obtain ⟨hStart, hEnd, hFreq, hLeft, hRight, hK1, hK2, hExbank, hControl, hStop0, hLei⟩ :=
    (Voice.keptByFrame_hostKept _ (s.voice i)).finishFrame hx i (.refl _)
  exact ⟨hStart, hEnd, hFreq, hLeft, hRight, hK1, hK2, hExbank, hControl, hStop0, hLei⟩

end Sys2Proof.Machine
end

section
/-! PROOFS. The family of spec/20_memory.md: no event writes the regions or the parameters (R41, R47), what the platform stores is read
back (R53), a step runs the event it takes (R50), and the reads of a region and the fetch that makes two of them (R42 to R45). -/

namespace Sys2Proof.Machine

/-! ### The event a step takes (R50, R60) -/

/-- Settles O20: a step that completes has one of the seven effects on the state with its event taken, and none of them reaches memory,
parameters or the events still to come. -/
theorem noEventWritesMemoryOrParameters : Obligations.NoEventWritesMemoryOrParameters := by
  intro s t h
  rcases step_next h with ⟨hInput, rfl⟩ | ⟨e, rest, hInput, hEffect⟩
  · exact ⟨rfl, rfl, by rw [hInput, List.tail_nil]⟩
  · obtain ⟨hMemory, hParams, hRest⟩ := hEffect.sameSurroundings
    exact ⟨hMemory, hParams, by rw [hRest, hInput, List.tail_cons]⟩

theorem step_of_no_input {s : State} (h : s.input = []) : step s = .next s := by
  unfold step
  rw [h]

theorem step_of_decode {s : State} {e : Event} {rest : List Event} {i : Instr} {tail : List Byte}
    (hInput : s.input = e :: rest) (hDecode : decode (e.bytes s.chip.currentPage) = .ok (i, tail)) :
    step s = exec i { s with input := rest } := by
  unfold step
  rw [hInput]
  simp only [hDecode]

/-- Settles O4, by the two branches of `step` that take no event and a decodable one. -/
theorem stepRunsTheDecodedEvent : Obligations.StepRunsTheDecodedEvent :=
  ⟨fun _ _ _ _ _ hInput hDecode => step_of_decode hInput hDecode, fun _ hInput => step_of_no_input hInput⟩

/-! ### The platform's store (R53) -/

/-- The stored region is written, and no other one is touched. -/
theorem State.region_platformWrite (s : State) (r q : BitVec 2) (i : Nat) (b : Byte) :
    Memory.region (s.platformWrite r i b).memory q =
      if q = r then (Memory.region s.memory r).map (Region.write · i b) else Memory.region s.memory q := by
  rw [State.platformWrite_memory, Memory.region_setRegion]

/-- Settles O48, by the read-after-write rule of the cells of a canonical region. -/
theorem platformStoreIsReadBack : Obligations.PlatformStoreIsReadBack := by
  intro s r i b x hWf hRegion hi
  have hx : x.wf = true := (Memory.wf_iff _).1 hWf r x hRegion
  have hStored : Memory.region (s.platformWrite r i b).memory r = some (x.write i b) := by
    rw [State.region_platformWrite, if_pos rfl, hRegion, Option.map_some]
  have hOthers : ∀ q, q ≠ r → Memory.region (s.platformWrite r i b).memory q = Memory.region s.memory q :=
    fun q hq => by rw [State.region_platformWrite, if_neg hq]
  exact ⟨s.wf_platformWrite r i b hWf,
    ⟨x.write i b, hStored, x.len_write i b, fun j => x.byteAt_write i b j hx hi⟩, hOthers, s.platformWrite_chip r i b⟩

/-! ### Reads of a region (R44, R45) -/

section
variable {r : Region} {i : Nat}

theorem Region.read8_of_lt (h : i < r.len) (d : Nat) : r.read8 i d = (r.byteAt i, d) := if_pos h

theorem Region.read8_of_le (h : r.len ≤ i) (d : Nat) : r.read8 i d = (Config.freeByte d, d + 1) :=
  if_neg (Nat.not_lt.2 h)

theorem Region.read16_of_lt (h : 2 * i + 1 < r.len) (bigEndian : Bool) (d : Nat) :
    r.read16 bigEndian i d =
      (if bigEndian then r.byteAt (2 * i) ++ r.byteAt (2 * i + 1) else r.byteAt (2 * i + 1) ++ r.byteAt (2 * i), d) :=
  if_pos h

theorem Region.read16_of_le (h : r.len ≤ 2 * i + 1) (bigEndian : Bool) (d : Nat) :
    r.read16 bigEndian i d = (Config.freeSample d, d + 1) :=
  if_neg (Nat.not_lt.2 h)

/-- Inside the region a read draws nothing (R45). -/
theorem Region.read16_keeps_draws (h : 2 * i + 1 < r.len) (bigEndian : Bool) (d : Nat) :
    r.read16 bigEndian i d = ((r.read16 bigEndian i d).1, d) := by
  rw [Region.read16_of_lt h]

end

/-- Two bytes side by side as a signed number, the first the more significant (R45). -/
theorem toInt_append_bytes (hi lo : Byte) : (hi ++ lo).toInt = (hi.toNat * 256 + lo.toNat : Int).bmod 65536 := by
  have hNat : (hi ++ lo).toNat = hi.toNat * 256 + lo.toNat := by
    rw [BitVec.toNat_append, ← Nat.shiftLeft_add_eq_or_of_lt lo.isLt, Nat.shiftLeft_eq]
  rw [BitVec.toInt_eq_toNat_bmod, hNat]
  push_cast
  rfl

/-- Settles O47, by whether the index is inside the region. -/
theorem regionReads : Obligations.RegionReads := by
  intro r i d
  refine ⟨fun h => Region.read8_of_lt h d, fun h => ?_, fun h => ?_, fun h => ?_⟩
  · rw [Region.read8_of_le h]
  · rw [Region.read16_of_lt h, Region.read16_of_lt h]
    exact ⟨toInt_append_bytes _ _, toInt_append_bytes _ _, rfl, rfl⟩
  · rw [Region.read16_of_le h, Region.read16_of_le h]
    exact ⟨rfl, rfl⟩

/-! ### The fetch (R170, R173, R174) -/

theorem readSample_pcm16 (p : Params) (r : Region) (i d : Nat) : readSample p false r i d = r.read16 p.bigEndian i d := rfl

theorem readSample_ulaw8 {p : Params} {r : Region} {i : Nat} (h : i < r.len) (d : Nat) :
    readSample p true r i d = (ulawEntry p.ulaw (r.byteAt i), d) := by
  simp only [readSample, if_true, Region.read8_of_lt h]

/-- When neither of its two reads draws, a fetch gives the two samples at the count it was given. -/
theorem fetch_of_reads {p : Params} {mem : Memory} {v : Voice} {pos : Word} {d : Nat} {r : Region} {s1 s2 : Sample}
    (hRegion : Memory.region mem v.bs = some r)
    (h1 : readSample p v.cmpd r (v.exbank.toNat + pos.toNat / 2048) d = (s1, d))
    (h2 : readSample p v.cmpd r (v.exbank.toNat + ((pos + 0x800#32) &&& posMask p).toNat / 2048) d = (s2, d)) :
    fetch p mem v pos d = some ⟨s1, s2, d⟩ := by
  have e1 : readSample p v.cmpd r (v.sampleIndex pos) d = (s1, d) := h1
  have e2 : readSample p v.cmpd r (v.sampleIndex (nextPosition (posMask p) pos)) d = (s2, d) := h2
  simp only [fetch, hRegion, Option.map_some, e1, e2]

/-- Settles O49, by the format `CMPD` names. -/
theorem fetchTakesTwoNeighbours : Obligations.FetchTakesTwoNeighbours := by
  intro p mem v pos d r hRegion
  constructor
  · intro hPcm h1 h2
    apply fetch_of_reads hRegion <;> rw [hPcm, readSample_pcm16]
    · exact Region.read16_keeps_draws h1 _ d
    · exact Region.read16_keeps_draws h2 _ d
  · intro hUlaw h1 h2
    apply fetch_of_reads hRegion <;> rw [hUlaw]
    · exact readSample_ulaw8 h1 d
    · exact readSample_ulaw8 h2 d

end Sys2Proof.Machine
end

section
/-! PROOFS. The family of spec/30_encoding.md: the event words and their bytes (R69, R70, R73), the register map (R65, R66), what a bus
access does at each register (R67, R68, R71), `STOP v` (R75), and the page that a FRAME does not read (R72). -/

namespace Sys2Proof

/-! ### The fields of a page (R65) -/

@[simp] theorem isTest_pageOf : ∀ (view : BitVec 1) (voice : VoiceIx), (pageOf view voice).isTest = false := by decide

@[simp] theorem view_pageOf : ∀ (view : BitVec 1) (voice : VoiceIx), (pageOf view voice).view = view := by decide

@[simp] theorem voice_pageOf : ∀ (view : BitVec 1) (voice : VoiceIx), (pageOf view voice).voice = voice := by decide

@[simp] theorem isTest_testPageOf : ∀ low : BitVec 6, (testPageOf low).isTest = true := by decide

@[simp] theorem testLow_testPageOf : ∀ low : BitVec 6, (testPageOf low).testLow = low := by decide

theorem pageOf_view_voice : ∀ {p : Page}, p.isTest = false → pageOf p.view p.voice = p := by decide

theorem testPageOf_testLow : ∀ {p : Page}, p.isTest = true → testPageOf p.testLow = p := by decide

theorem toNat_pageOf_low : ∀ v : VoiceIx, (pageOf 0#1 v).toNat = v.toNat := by decide

theorem toNat_pageOf_high : ∀ v : VoiceIx, (pageOf 1#1 v).toNat = 32 + v.toNat := by decide

/-- Pages 0 to 31 are the low view (R65). -/
theorem eq_pageOf_low {p : Page} {v : VoiceIx} (h : p.toNat = v.toNat) : p = pageOf 0#1 v :=
  BitVec.eq_of_toNat_eq (h.trans (toNat_pageOf_low v).symm)

/-- Pages 32 to 63 are the high view (R65). -/
theorem eq_pageOf_high {p : Page} {v : VoiceIx} (h : p.toNat = 32 + v.toNat) : p = pageOf 1#1 v :=
  BitVec.eq_of_toNat_eq (h.trans (toNat_pageOf_high v).symm)

/-- Pages 64 to 127 are the test pages (R65). -/
theorem isTest_of_le : ∀ {p : Page}, 64 ≤ p.toNat → p.isTest = true := by decide

/-! ### What the decoder makes of a bus access, as the encoder sees it (R66, R69, R70) -/

/-- The event has the word `w` and carries `value` beside it. -/
structure Instr.EncodesAs (i : Instr) (w : EventWord) (value : Option Word) : Prop where
  wf : i.wf = true
  word : eventWord i = w
  value : busValue i = value

/-- The offsets of a view that are neither `CONTROL` nor on every page. -/
theorem viewOffset_cases : ∀ {o : Offset}, o ≠ 0#4 → o ≠ 14#4 → o ≠ 15#4 →
    o = 1#4 ∨ o = 2#4 ∨ o = 3#4 ∨ o = 4#4 ∨ o = 5#4 ∨ o = 6#4 ∨ o = 7#4 ∨ o = 8#4 ∨ o = 9#4 ∨ o = 10#4 ∨ o = 11#4 ∨
      o = 12#4 ∨ o = 13#4 := by decide

theorem testOffsetOk_iff : ∀ {o : Offset}, Instr.testOffsetOk o = true ↔ o ≠ 14#4 ∧ o ≠ 15#4 := by decide

section
variable {o : Offset} (h0 : o ≠ 0#4) (h14 : o ≠ 14#4) (h15 : o ≠ 15#4) (voice : VoiceIx) (value : Word)
include h0 h14 h15

theorem decodeRdLow_encodesAs : (decodeRdLow o.toNat voice).EncodesAs (rdWord (pageOf 0#1 voice) o) none := by
  rcases viewOffset_cases h0 h14 h15 with rfl | rfl | rfl | rfl | rfl | rfl | rfl | rfl | rfl | rfl | rfl | rfl | rfl <;>
    exact ⟨rfl, rfl, rfl⟩

theorem decodeRdHigh_encodesAs : (decodeRdHigh o.toNat voice).EncodesAs (rdWord (pageOf 1#1 voice) o) none := by
  rcases viewOffset_cases h0 h14 h15 with rfl | rfl | rfl | rfl | rfl | rfl | rfl | rfl | rfl | rfl | rfl | rfl | rfl <;>
    exact ⟨rfl, rfl, rfl⟩

theorem decodeWrLow_encodesAs :
    (decodeWrLow o.toNat voice value).EncodesAs (wrWord (pageOf 0#1 voice) o) (some value) := by
  rcases viewOffset_cases h0 h14 h15 with rfl | rfl | rfl | rfl | rfl | rfl | rfl | rfl | rfl | rfl | rfl | rfl | rfl <;>
    exact ⟨rfl, rfl, rfl⟩

theorem decodeWrHigh_encodesAs :
    (decodeWrHigh o.toNat voice value).EncodesAs (wrWord (pageOf 1#1 voice) o) (some value) := by
  rcases viewOffset_cases h0 h14 h15 with rfl | rfl | rfl | rfl | rfl | rfl | rfl | rfl | rfl | rfl | rfl | rfl | rfl <;>
    exact ⟨rfl, rfl, rfl⟩

end

/-- A page below 64 whose view bit is not 0 is a page of the high view. -/
theorem pageOf_one_voice {p : Page} (ht : ¬p.isTest = true) (hv : ¬p.view = 0#1) : pageOf 1#1 p.voice = p := by
  have view_cases : ∀ view : BitVec 1, ¬view = 0#1 → view = 1#1 := by decide
  have e := pageOf_view_voice (Bool.eq_false_of_not_eq_true ht)
  rwa [view_cases p.view hv] at e

theorem pageOf_zero_voice {p : Page} (ht : ¬p.isTest = true) (hv : p.view = 0#1) : pageOf 0#1 p.voice = p := by
  have e := pageOf_view_voice (Bool.eq_false_of_not_eq_true ht)
  rwa [hv] at e

/-- A `RD` decodes to a well-formed event of its own word, by R70's items. -/
theorem decodeRd_encodesAs (p : Page) (o : Offset) : (decodeRd p o).EncodesAs (rdWord p o) none := by
  unfold decodeRd
  split_ifs with h15 h14 ht h0 hv
  · exact ⟨rfl, by rw [h15]; rfl, rfl⟩
  · exact ⟨rfl, by rw [h14]; rfl, rfl⟩
  · exact ⟨testOffsetOk_iff.2 ⟨h14, h15⟩, by rw [eventWord, testPageOf_testLow ht], rfl⟩
  · exact ⟨rfl, by rw [h0, eventWord, pageOf_view_voice (Bool.eq_false_of_not_eq_true ht)], rfl⟩
  · have e := decodeRdLow_encodesAs h0 h14 h15 p.voice
    rwa [pageOf_zero_voice ht hv] at e
  · have e := decodeRdHigh_encodesAs h0 h14 h15 p.voice
    rwa [pageOf_one_voice ht hv] at e

/-- A `WR` decodes to a well-formed event of its own word that carries its value, by R70's items. -/
theorem decodeWr_encodesAs (p : Page) (o : Offset) (x : Word) : (decodeWr p o x).EncodesAs (wrWord p o) (some x) := by
  unfold decodeWr
  split_ifs with h15 h14 ht h0 hv
  · exact ⟨rfl, by rw [h15]; rfl, rfl⟩
  · exact ⟨rfl, by rw [h14]; rfl, rfl⟩
  · exact ⟨testOffsetOk_iff.2 ⟨h14, h15⟩, by rw [eventWord, testPageOf_testLow ht], rfl⟩
  · exact ⟨rfl, by rw [h0, eventWord, pageOf_view_voice (Bool.eq_false_of_not_eq_true ht)], rfl⟩
  · have e := decodeWrLow_encodesAs h0 h14 h15 p.voice x
    rwa [pageOf_zero_voice ht hv] at e
  · have e := decodeWrHigh_encodesAs h0 h14 h15 p.voice x
    rwa [pageOf_one_voice ht hv] at e

/-! ### Event words (R69) -/

/-- The four fields are the whole word. -/
theorem packWord_fields (w : EventWord) : packWord w.cls w.wr w.page w.offset = w := by
  apply BitVec.eq_of_toNat_eq
  have := w.isLt
  simp only [packWord_toNat, EventWord.cls, EventWord.wr, EventWord.page, EventWord.offset, BitVec.extractLsb'_toNat,
    Nat.shiftRight_eq_div_pow]
  omega

/-- A word of class 0 is the word of a `WR` or of a `RD` (R69). -/
theorem busWord_cases {w : EventWord} (h : w.cls = 0#2) :
    (w.wr = 1#1 ∧ w = wrWord w.page w.offset) ∨ (w.wr ≠ 1#1 ∧ w = rdWord w.page w.offset) := by
  have wr_cases : ∀ b : BitVec 1, b ≠ 1#1 → b = 0#1 := by decide
  have e := packWord_fields w
  by_cases hw : w.wr = 1#1
  · rw [h, hw] at e
    exact .inl ⟨hw, e.symm⟩
  · rw [h, wr_cases w.wr hw] at e
    exact .inr ⟨hw, e.symm⟩

/-- Settles O2: a word of class 0 is the word of an access, which decodes to an event of that word; `decodeWord` looks at the class of
every other word alone. -/
theorem everyEventWordIsClassified : Obligations.EveryEventWordIsClassified := by
  intro w x
  refine ⟨fun h => by simp [decodeWord, h], fun h => by simp [decodeWord, h], fun h => by simp [decodeWord, h],
    fun h => ?_⟩
  rcases busWord_cases h with ⟨hw, e⟩ | ⟨hw, e⟩
  · obtain ⟨hWf, hWord, hValue⟩ := decodeWr_encodesAs w.page w.offset x
    refine ⟨_, ?_, hWf, hWord.trans e.symm, by rw [hValue, if_pos hw]⟩
    rw [← decodeWord_wrWord, ← e]
  · obtain ⟨hWf, hWord, hValue⟩ := decodeRd_encodesAs w.page w.offset
    refine ⟨_, ?_, hWf, hWord.trans e.symm, by rw [hValue, if_neg hw]⟩
    rw [← decodeWord_rdWord _ _ x, ← e]

/-- Settles O3, by evaluating the decoder on the seven words. -/
theorem sampleEventWordsDecode : Obligations.SampleEventWordsDecode := by
  unfold Obligations.SampleEventWordsDecode
  decide

end Sys2Proof

namespace Sys2Proof.Machine

/-! ### The event that an issued event is on a page (R64, R70) -/

/-- What the decoder makes of an issued event on page `p` (`Event.decode_bytes_append`). -/
def Event.instr (p : Page) : Event → Instr
  | .wr o x => decodeWr p o x
  | .rd o => decodeRd p o
  | .frame => .frame
  | .reset => .reset

/-- The bytes of an event that carries no value are its word's alone. -/
theorem decode_of_decodeWord {w : EventWord} {i : Instr} (hw : w.carriesValue = false) (h : decodeWord w 0#32 = .ok i)
    (rest : List Byte) : decode (wordBytes w ++ [] ++ rest) = .ok (i, rest) := by
  rw [List.append_nil, decode_wordBytes hw, h]
  rfl

theorem Event.decode_bytes_append (p : Page) (e : Event) (rest : List Byte) :
    decode (e.bytes p ++ rest) = .ok (e.instr p, rest) := by
  cases e with
  | wr o x =>
    have h := decode_wordBytes_value (carriesValue_wrWord p o) x rest
    rwa [decodeWord_wrWord] at h
  | rd o => exact decode_of_decodeWord (carriesValue_rdWord p o) (decodeWord_rdWord p o _) rest
  | frame => exact decode_of_decodeWord (w := packWord 1#2 0#1 0#7 0#4) (i := .frame) (by decide) (by decide) rest
  | reset => exact decode_of_decodeWord (w := packWord 2#2 0#1 0#7 0#4) (i := .reset) (by decide) (by decide) rest

/-- The value that a `WR` carries. -/
def Event.value : Event → Option Word
  | .wr _ x => some x
  | .rd _ | .frame | .reset => none

theorem Event.instr_encodesAs (p : Page) (e : Event) : (e.instr p).EncodesAs (e.word p) e.value := by
  cases e with
  | wr o x => exact decodeWr_encodesAs p o x
  | rd o => exact decodeRd_encodesAs p o
  | frame | reset => exact ⟨rfl, rfl, rfl⟩

theorem Event.encode_instr (p : Page) (e : Event) : encode (e.instr p) = e.bytes p := by
  obtain ⟨-, hWord, hValue⟩ := e.instr_encodesAs p
  rw [encode, hWord, hValue]
  cases e <;> rfl

/-- Settles O5: the event's bytes decode wholly to the event it is on the page. -/
theorem everyIssuedEventDecodes : Obligations.EveryIssuedEventDecodes := by
  intro p e
  obtain ⟨hWf, hWord, -⟩ := e.instr_encodesAs p
  have hDecode := e.decode_bytes_append p []
  rw [List.append_nil] at hDecode
  exact ⟨_, hDecode, hWf, hWord⟩

/-- No well-formed event is out of reach: it is what some issued event is on some page, namely the event of its word on the page of
its word. -/
theorem Instr.exists_event {i : Instr} (h : i.wf = true) : ∃ e p, Event.instr p e = i := by
  suffices hi : (Event.ofWord (eventWord i) ((busValue i).getD 0#32)).map (Event.instr (eventWord i).page) = some i by
    obtain ⟨e, -, he⟩ := Option.map_eq_some_iff.1 hi
    exact ⟨e, _, he⟩
  cases i with
  | rdControl | rdFreqcount | rdLeftVolume | rdLeftRamp | rdRightVolume | rdRightRamp | rdEnvelopeCount | rdK2 | rdK2Ramp
  | rdK1 | rdK1Ramp | rdActiveVoices | rdMode | rdRsvdL13 =>
    simp [eventWord, rdWord, Event.ofWord, Event.instr, decodeRd, decodeRdLow]
  | rdStart | rdEnd | rdAccumulator | rdO4 | rdO3 | rdO2 | rdO1 | rdExbank | rdRsvdH9 | rdRsvdH10 | rdRsvdH11 | rdRsvdH12
  | rdRsvdH13 =>
    simp [eventWord, rdWord, Event.ofWord, Event.instr, decodeRd, decodeRdHigh]
  | rdIrqv | rdPage => simp [eventWord, rdWord, Event.ofWord, Event.instr, decodeRd]
  | wrControl | wrFreqcount | wrLeftVolume | wrLeftRamp | wrRightVolume | wrRightRamp | wrEnvelopeCount | wrK2 | wrK2Ramp
  | wrK1 | wrK1Ramp | wrActiveVoices | wrMode | wrRsvdL13 =>
    simp [eventWord, busValue, wrWord, Event.ofWord, Event.instr, decodeWr, decodeWrLow]
  | wrStart | wrEnd | wrAccumulator | wrO4 | wrO3 | wrO2 | wrO1 | wrExbank | wrRsvdH9 | wrRsvdH10 | wrRsvdH11 | wrRsvdH12
  | wrRsvdH13 =>
    simp [eventWord, busValue, wrWord, Event.ofWord, Event.instr, decodeWr, decodeWrHigh]
  | wrIrqv | wrPage => simp [eventWord, busValue, wrWord, Event.ofWord, Event.instr, decodeWr]
  | rdTest low o =>
    obtain ⟨h14, h15⟩ := testOffsetOk_iff.1 h
    simp [eventWord, rdWord, Event.ofWord, Event.instr, decodeRd, h14, h15]
  | wrTest low o x =>
    obtain ⟨h14, h15⟩ := testOffsetOk_iff.1 h
    simp [eventWord, busValue, wrWord, Event.ofWord, Event.instr, decodeWr, h14, h15]
  | frame | reset => simp [eventWord, Event.ofWord, Event.instr]

/-- Settles O1: the event is one that is issued on some page, its bytes are those of the issued event, and these decode to it. -/
theorem decodeOfEncodeIsTheEvent : Obligations.DecodeOfEncodeIsTheEvent := by
  intro i rest h
  obtain ⟨e, p, rfl⟩ := Instr.exists_event h
  rw [Event.encode_instr, Event.decode_bytes_append]

/-! ### The register map (R65, R66) -/

/-- A step runs what the event it takes is on the current page. -/
theorem step_of_event {s : State} {e : Event} {rest : List Event} (h : s.input = e :: rest) :
    step s = exec (e.instr s.chip.currentPage) { s with input := rest } := by
  have hDecode := e.decode_bytes_append s.chip.currentPage []
  rw [List.append_nil] at hDecode
  exact step_of_decode h hDecode

theorem instr_of_mem_lowViewMap {v : VoiceIx} {x : Word} {q : Event × Instr} (h : q ∈ lowViewMap v x) :
    q.1.instr (pageOf 0#1 v) = q.2 := by
  revert q
  simp [lowViewMap, Event.instr, decodeRd, decodeRdLow, decodeWr, decodeWrLow]

theorem instr_of_mem_highViewMap {v : VoiceIx} {x : Word} {q : Event × Instr} (h : q ∈ highViewMap v x) :
    q.1.instr (pageOf 1#1 v) = q.2 := by
  revert q
  simp [highViewMap, Event.instr, decodeRd, decodeRdHigh, decodeWr, decodeWrHigh]

theorem instr_of_mem_everyPageMap {p : Page} {x : Word} {q : Event × Instr} (h : q ∈ everyPageMap p x) :
    q.1.instr p = q.2 := by
  revert q
  simp [everyPageMap, Event.instr, decodeRd, decodeWr]

section
variable {p : Page} {o : Offset} (hp : p.isTest = true) (ho : o.toNat ≤ 13)
include hp ho

theorem instr_rd_of_isTest : (Event.rd o).instr p = .rdTest p.testLow o := by
  obtain ⟨h14, h15⟩ := testOffsetOk_iff.1 (decide_eq_true ho)
  simp [Event.instr, decodeRd, h14, h15, hp]

theorem instr_wr_of_isTest (x : Word) : (Event.wr o x).instr p = .wrTest p.testLow o x := by
  obtain ⟨h14, h15⟩ := testOffsetOk_iff.1 (decide_eq_true ho)
  simp [Event.instr, decodeWr, h14, h15, hp]

end

/-- Settles O6: a step runs what its event is on the current page, and the map says what that is. -/
theorem registerMapOfEveryPage : Obligations.RegisterMapOfEveryPage := by
  intro s v p x rest
  have run : ∀ {e : Event} {i : Instr}, e.instr p = i →
      step { s with chip := { s.chip with currentPage := p }, input := e :: rest } =
        exec i { s with chip := { s.chip with currentPage := p }, input := rest } := by
    rintro e _ rfl
    exact step_of_event rfl
  refine ⟨fun hLow q hq => run ?_, fun hHigh q hq => run ?_, fun hTest o ho => ?_, fun q hq => run ?_⟩
  · rw [eq_pageOf_low hLow]
    exact instr_of_mem_lowViewMap hq
  · rw [eq_pageOf_high hHigh]
    exact instr_of_mem_highViewMap hq
  · have hp := isTest_of_le hTest
    exact ⟨run (instr_wr_of_isTest hp ho x), run (instr_rd_of_isTest hp ho)⟩
  · exact instr_of_mem_everyPageMap hq

/-! ### Bus events by what they do to the machine (R61, R62, R67, R68, R71) -/

section
variable {s : State} {e : Instr}

theorem State.StoresVoice.of_exec {i : VoiceIx} {w : Voice} (h : exec e s = .next (s.writeVoice i w)) :
    s.StoresVoice e i w :=
  ⟨_, h, s.chip.voice_setVoice_same i w,
    ⟨fun _ hj => s.chip.voice_setVoice_of_ne w hj, ⟨rfl, rfl, rfl, rfl, rfl⟩, ⟨rfl, rfl, rfl⟩, rfl⟩, rfl⟩

theorem State.StoresChip.of_exec {c : Chip} (h : exec e s = .next (s.writeChip c)) : s.StoresChip e c :=
  ⟨_, h, rfl, ⟨rfl, rfl, rfl⟩, rfl, rfl⟩

theorem State.Answers.of_exec {x : Word} (h : exec e s = .next (s.answer x)) : s.Answers e x :=
  ⟨_, h, rfl, rfl, ⟨rfl, rfl, rfl⟩, rfl⟩

theorem State.Ignores.of_exec (h : exec e s = .next s.ignoreWrite) : s.Ignores e :=
  ⟨_, h, rfl, rfl, ⟨rfl, rfl, rfl⟩, rfl⟩

/-- A register of 32 bits is read as it is (R68). -/
theorem State.Answers.word_of_exec {x : Word} (h : exec e s = .next (s.answer (zext x))) : s.Answers e x := by
  rw [zext, BitVec.setWidth_eq] at h
  exact State.Answers.of_exec h

end

/-- Settles O7: the arm of each `WR` writes one voice or one chip-global register. -/
theorem writesStoreTheCutValue : Obligations.WritesStoreTheCutValue := by
  intro s v view low page x
  exact ⟨.of_exec rfl, .of_exec rfl, .of_exec rfl, .of_exec rfl, .of_exec rfl, .of_exec rfl, .of_exec rfl,
    .of_exec rfl, .of_exec rfl, .of_exec rfl, .of_exec rfl, .of_exec rfl, .of_exec rfl, .of_exec rfl, .of_exec rfl,
    .of_exec rfl, .of_exec rfl, .of_exec rfl, .of_exec rfl, .of_exec rfl, .of_exec rfl, .of_exec rfl⟩

/-- Settles O8: the arm of each `RD` answers its register, and 0 where there is none; the arm of `RD_IRQV` answers before it
acknowledges. -/
theorem readsReturnTheRegister : Obligations.ReadsReturnTheRegister := by
  intro s v view low page testLow o
  exact ⟨.of_exec rfl, .word_of_exec rfl, .of_exec rfl, .of_exec rfl, .of_exec rfl, .of_exec rfl, .of_exec rfl,
    .of_exec rfl, .of_exec rfl, .of_exec rfl, .of_exec rfl, .of_exec rfl, .of_exec rfl, .word_of_exec rfl,
    .word_of_exec rfl, .word_of_exec rfl, .word_of_exec rfl, .word_of_exec rfl, .word_of_exec rfl, .word_of_exec rfl,
    .word_of_exec rfl, .of_exec rfl, ⟨_, rfl, rfl⟩, .of_exec rfl, .of_exec rfl, .of_exec rfl, .of_exec rfl,
    .of_exec rfl, .of_exec rfl, .of_exec rfl⟩

/-- Settles O9: the arms of the reserved offsets write nothing and answer 0. -/
theorem reservedOffsetsDoNothing : Obligations.ReservedOffsetsDoNothing := by
  intro s v low x
  exact ⟨.of_exec rfl, .of_exec rfl, .of_exec rfl, .of_exec rfl, .of_exec rfl, .of_exec rfl, .of_exec rfl,
    .of_exec rfl, .of_exec rfl, .of_exec rfl, .of_exec rfl, .of_exec rfl⟩

/-! ### `STOP v` (R75) -/

/-- `VOICE v` writes the low page of voice `v`. -/
theorem cut7_zext_voice : ∀ v : VoiceIx, cut7 (zext v) = pageOf 0#1 v := by decide

/-- What `STOP v` writes, cut to 16 bits as R67 says: `control` with both stop flags. -/
theorem cut16_zext_or_stop (c : Half) : cut16 (zext c ||| 0x0003#32) = c ||| 0x0003#16 := by
  have hc : (c.setWidth 32).extractLsb' 0 16 = c := by
    apply BitVec.eq_of_toNat_eq
    rw [BitVec.extractLsb'_toNat, BitVec.toNat_setWidth, Nat.shiftRight_zero, Nat.mod_mod_of_dvd _ (by decide),
      Nat.mod_eq_of_lt c.isLt]
  rw [cut16, zext, BitVec.extractLsb'_or, hc]
  rfl

/-- Offset 0 of both views is `CONTROL` (R66). -/
theorem decodeWr_control (view : BitVec 1) (v : VoiceIx) (x : Word) :
    decodeWr (pageOf view v) 0#4 x = .wrControl view v x := by
  simp [decodeWr]

/-- The two steps of `STOP v`: `WR_PAGE` to the low page of voice `v`, and on that page its `WR_CONTROL`. -/
theorem steps_of_pseudoStop (s : State) (v : VoiceIx) (rest : List Event) :
    ∃ t, step { s with input := pseudoStop s v ++ rest } = .next t ∧
      step t = .next (State.writeVoice { s with chip := { s.chip with currentPage := pageOf 0#1 v }, input := rest } v
        { s.voice v with control := (s.voice v).control ||| 0x0003#16 }) := by
  have hPage (p : Page) : (Event.wr 15#4 (zext v)).instr p = .wrPage p (zext v) := rfl
  have hControl (x : Word) : (Event.wr 0#4 x).instr (pageOf 0#1 v) = .wrControl 0#1 v x := decodeWr_control 0#1 v x
  refine ⟨{ s with
    chip := { s.chip with currentPage := pageOf 0#1 v }
    input := .wr 0#4 (zext (s.voice v).control ||| 0x0003#32) :: rest
    output := .nothing }, ?_, ?_⟩
  · rw [step_of_event rfl, hPage, ← cut7_zext_voice]
    rfl
  · rw [step_of_event rfl, hControl, ← cut16_zext_or_stop]
    rfl

/-- Settles O14: after the two steps voice `v` is written and the page is its low page. -/
theorem stopPseudoEventStopsTheVoice : Obligations.StopPseudoEventStopsTheVoice := by
  intro s v rest
  obtain ⟨t, hFirst, hSecond⟩ := steps_of_pseudoStop s v rest
  exact ⟨t, _, hFirst, hSecond, rfl, Chip.voice_setVoice_same _ v _, fun _ hj => Chip.voice_setVoice_of_ne _ _ hj,
    toNat_pageOf_low v, rfl, rfl, rfl⟩

/-! ### The page inside a FRAME (R72, R210) -/

/-- The block on another page. -/
def Chip.onPage (c : Chip) (p : Page) : Chip := { c with currentPage := p }

/-- The FRAME's accumulator with its block on another page. -/
def Mix.onPage (x : Mix) (p : Page) : Mix := { x with chip := x.chip.onPage p }

/-- The machine with its block on another page. -/
def State.onPage (s : State) (p : Page) : State := { s with chip := s.chip.onPage p }

@[simp] theorem Chip.servicedCount_onPage (c : Chip) (page : Page) : (c.onPage page).servicedCount = c.servicedCount := rfl

theorem Mix.service_onPage (p : Params) (mem : Memory) (x : Mix) (i : VoiceIx) (page : Page) :
    (x.onPage page).service p mem i = (x.service p mem i).map (·.onPage page) := by
  rw [Mix.service, Mix.service, Option.map_map]
  rfl

theorem Mix.serviceBelow_onPage (p : Params) (mem : Memory) (n : Nat) (x : Mix) (page : Page) :
    Mix.serviceBelow p mem n (x.onPage page) = (Mix.serviceBelow p mem n x).map (·.onPage page) := by
  induction n with
  | zero => rfl
  | succ n ih =>
    rw [Mix.serviceBelow, Mix.serviceBelow, ih]
    cases Mix.serviceBelow p mem n x with
    | none => rfl
    | some y => exact Mix.service_onPage p mem y _ page

theorem Chip.irqScan_onPage (c : Chip) (i : VoiceIx) (page : Page) :
    (c.onPage page).irqScan i = (c.irqScan i).onPage page := by
  unfold Chip.irqScan
  rw [apply_ite (Chip.onPage · page), apply_ite (Chip.onPage · page)]
  rfl

theorem Chip.scanBelow_onPage (c : Chip) (n : Nat) (page : Page) :
    (c.onPage page).scanBelow n = (c.scanBelow n).onPage page := by
  induction n with
  | zero => rfl
  | succ n ih => rw [Chip.scanBelow, Chip.scanBelow, ih, Chip.irqScan_onPage]

theorem State.finishFrame_onPage (s : State) (x : Mix) (page : Page) :
    (s.onPage page).finishFrame (x.onPage page) = (s.finishFrame x).onPage page := by
  simp [State.finishFrame, State.onPage, Mix.onPage, Chip.scanBelow_onPage]

/-- A FRAME whose voices are serviced completes (R210). -/
theorem execFrame_of_serviced {s : State} {x : Mix}
    (h : Mix.serviceBelow s.params s.memory s.chip.servicedCount s.startMix = some x) :
    execFrame s = .next (s.finishFrame x) := by
  unfold execFrame
  rw [h]

/-- Settles O28: the service of the voices and the scan commute with a change of the page. -/
theorem pageDoesNotReachTheAudio : Obligations.PageDoesNotReachTheAudio := by
  intro s t p h
  obtain ⟨x, hx, rfl⟩ := execFrame_next h
  have hServiced :
      Mix.serviceBelow s.params s.memory s.chip.servicedCount (s.startMix.onPage p) = some (x.onPage p) := by
    rw [Mix.serviceBelow_onPage, hx, Option.map_some]
  have hFrame := execFrame_of_serviced (s := s.onPage p) hServiced
  rw [State.finishFrame_onPage] at hFrame
  exact hFrame

end Sys2Proof.Machine
end

section
/-! PROOFS. The family of spec/40_register_access.md: a register reads back what was written (R132), the vector (R112, R113), and the
stubs of the test pages (R130, R131). -/

namespace Sys2Proof.Machine

/-! ### A write and then a read of the same offset (R132) -/

/-- A `WR` of `x` and then a `RD` at offset `o`, as the next two steps, return `y`. -/
def State.ReadsBack (s : State) (o : Offset) (x y : Word) : Prop :=
  ∃ t u, step { s with input := [.wr o x, .rd o] } = .next t ∧ step t = .next u ∧ u.output = .data y

section
variable {s : State} {o : Offset} {x y : Word} {wr rd : Instr}

/-- The write is what offset `o` is on the current page, the read what it is on the page that the write leaves. -/
theorem State.ReadsBack.of_exec {t : State} (hWr : (Event.wr o x).instr s.chip.currentPage = wr)
    (hExec : exec wr { s with input := [.rd o] } = .next t) (hInput : t.input = [.rd o])
    (hRd : (Event.rd o).instr t.chip.currentPage = rd) (hAnswer : State.Answers { t with input := [] } rd y) :
    s.ReadsBack o x y := by
  obtain ⟨u, hRead, hOutput, -⟩ := hAnswer
  refine ⟨t, u, ?_, ?_, hOutput⟩
  · rw [step_of_event rfl, hWr, hExec]
  · rw [step_of_event hInput, hRd, hRead]

/-- A register of a voice: `wr` stores the voice `w`, and `rd` answers the register. -/
theorem State.ReadsBack.of_voice {v : VoiceIx} {w : Voice} {n : Nat} (reg : Voice → BitVec n)
    (hWr : (Event.wr o x).instr s.chip.currentPage = wr) (hRd : (Event.rd o).instr s.chip.currentPage = rd)
    (hStore : exec wr { s with input := [.rd o] } = .next (State.writeVoice { s with input := [.rd o] } v w))
    (hAnswer : ∀ t : State, exec rd t = .next (t.answer (zext (reg (t.voice v))))) (hReg : zext (reg w) = y := by rfl) :
    s.ReadsBack o x y := by
  rw [← hReg, ← s.chip.voice_setVoice_same v w]
  exact .of_exec hWr hStore rfl hRd (.of_exec (hAnswer _))

/-- A chip-global register: `wr` leaves the block as `c`, on the same page, and `rd` answers the register. -/
theorem State.ReadsBack.of_chip {c : Chip} {n : Nat} (reg : Chip → BitVec n)
    (hWr : (Event.wr o x).instr s.chip.currentPage = wr) (hRd : (Event.rd o).instr s.chip.currentPage = rd)
    (hStore : exec wr { s with input := [.rd o] } = .next (State.writeChip { s with input := [.rd o] } c))
    (hAnswer : ∀ t : State, exec rd t = .next (t.answer (zext (reg t.chip))))
    (hPage : c.currentPage = s.chip.currentPage := by rfl) (hReg : zext (reg c) = y := by rfl) : s.ReadsBack o x y := by
  have hRdAfter : (Event.rd o).instr c.currentPage = rd := by rwa [hPage]
  rw [← hReg]
  exact .of_exec hWr hStore rfl hRdAfter (.of_exec (hAnswer _))

end

/-- Offset 15 is `PAGE` before the write and after it, whatever page it selects (R114, R115). -/
theorem State.readsBack_page (s : State) (x : Word) : s.ReadsBack 15#4 x ((x.extractLsb' 0 7).setWidth 32) :=
  .of_exec (wr := .wrPage s.chip.currentPage x) (rd := .rdPage (cut7 x)) rfl rfl rfl rfl (.of_exec rfl)

/-- Settles O13: each register of the map of a view by its own `WR` and `RD`. -/
theorem registersReadBackWhatWasWritten : Obligations.RegistersReadBackWhatWasWritten := by
  intro s v x
  constructor
  · intro hPage
    change ∀ q ∈ (_ : List (Offset × Word)), s.ReadsBack q.1 x q.2
    have map q := instr_of_mem_lowViewMap (v := v) (x := x) (q := q)
    rw [← eq_pageOf_low hPage] at map
    simp only [lowViewMap, List.forall_mem_cons] at map ⊢
    obtain ⟨wrControl, rdControl, wrFreqcount, rdFreqcount, wrLeftVolume, rdLeftVolume, wrLeftRamp, rdLeftRamp,
      wrRightVolume, rdRightVolume, wrRightRamp, rdRightRamp, wrEnvelopeCount, rdEnvelopeCount, wrK2, rdK2,
      wrK2Ramp, rdK2Ramp, wrK1, rdK1, wrK1Ramp, rdK1Ramp, wrActiveVoices, rdActiveVoices, wrMode, rdMode, -⟩ := map
    exact ⟨
      .of_voice Voice.control wrControl rdControl rfl fun _ => rfl,
      .of_voice Voice.freqcount wrFreqcount rdFreqcount rfl fun _ => rfl,
      .of_voice Voice.leftVolume wrLeftVolume rdLeftVolume rfl fun _ => rfl,
      .of_voice Voice.leftRamp wrLeftRamp rdLeftRamp rfl fun _ => rfl,
      .of_voice Voice.rightVolume wrRightVolume rdRightVolume rfl fun _ => rfl,
      .of_voice Voice.rightRamp wrRightRamp rdRightRamp rfl fun _ => rfl,
      .of_voice Voice.envelopeCount wrEnvelopeCount rdEnvelopeCount rfl fun _ => rfl,
      .of_voice Voice.k2 wrK2 rdK2 rfl fun _ => rfl,
      .of_voice Voice.k2Ramp wrK2Ramp rdK2Ramp rfl fun _ => rfl,
      .of_voice Voice.k1 wrK1 rdK1 rfl fun _ => rfl,
      .of_voice Voice.k1Ramp wrK1Ramp rdK1Ramp rfl fun _ => rfl,
      .of_chip Chip.activeVoices wrActiveVoices rdActiveVoices rfl fun _ => rfl,
      .of_chip Chip.mode wrMode rdMode rfl fun _ => rfl,
      s.readsBack_page x, List.forall_mem_nil _⟩
  · intro hPage
    change ∀ q ∈ (_ : List (Offset × Word)), s.ReadsBack q.1 x q.2
    have map q := instr_of_mem_highViewMap (v := v) (x := x) (q := q)
    rw [← eq_pageOf_high hPage] at map
    simp only [highViewMap, List.forall_mem_cons] at map ⊢
    obtain ⟨wrControl, rdControl, wrStart, rdStart, wrEnd, rdEnd, wrAccumulator, rdAccumulator, wrO4, rdO4, wrO3, rdO3,
      wrO2, rdO2, wrO1, rdO1, wrExbank, rdExbank, -⟩ := map
    exact ⟨
      .of_voice Voice.control wrControl rdControl rfl fun _ => rfl,
      .of_voice Voice.start wrStart rdStart rfl fun _ => rfl,
      .of_voice Voice.endPos wrEnd rdEnd rfl fun _ => rfl,
      .of_voice Voice.accumulator wrAccumulator rdAccumulator rfl fun _ => rfl,
      .of_voice Voice.o4 wrO4 rdO4 rfl fun _ => rfl,
      .of_voice Voice.o3 wrO3 rdO3 rfl fun _ => rfl,
      .of_voice Voice.o2 wrO2 rdO2 rfl fun _ => rfl,
      .of_voice Voice.o1 wrO1 rdO1 rfl fun _ => rfl,
      .of_voice Voice.exbank wrExbank rdExbank rfl fun _ => rfl,
      s.readsBack_page x, List.forall_mem_nil _⟩

/-! ### The vector (R112, R113) -/

/-- Settles O11: the arm of `WR_IRQV` writes nothing. -/
theorem vectorWriteIsIgnored : Obligations.VectorWriteIsIgnored :=
  fun _ _ _ => .of_exec rfl

theorem exec_rdIrqv (page : Page) (s : State) :
    exec (.rdIrqv page) s = .next { s.answer (zext s.chip.irqVector) with chip := s.chip.acknowledge } := rfl

/-- An acknowledge with nothing pending changes nothing (R113). -/
theorem Chip.acknowledge_of_idle {c : Chip} (hVector : c.irqVector = idleVector) (hLine : c.irqLine = false) :
    c.acknowledge = c := by
  rw [Chip.acknowledge, ← hVector, ← hLine]

/-- Settles O12: the answer is the vector before the acknowledge; the second read finds the Idle vector. -/
theorem vectorReadAcknowledges : Obligations.VectorReadAcknowledges := by
  intro s page page'
  refine ⟨_, exec_rdIrqv page s, rfl, s.chip.acknowledge_irqVector, s.chip.acknowledge_irqLine,
    s.chip.voice_acknowledge, s.chip.acknowledge_activeVoices, s.chip.acknowledge_currentPage,
    s.chip.acknowledge_mode, ⟨rfl, rfl, rfl⟩, rfl, Chip.acknowledge_of_idle, ?_⟩
  exact ⟨_, exec_rdIrqv page' _, rfl⟩

/-! ### The test pages (R130, R131) -/

theorem State.ignores_wrTest (s : State) (low : BitVec 6) (o : Offset) (x : Word) : s.Ignores (.wrTest low o x) :=
  .of_exec rfl

theorem State.answers_rdTest (s : State) (low : BitVec 6) (o : Offset) : s.Answers (.rdTest low o) 0#32 :=
  .of_exec rfl

/-- Settles O10: from a test page a step at offsets 0 to 13 runs the stub, on the state with its event taken. -/
theorem testPagesAreStubs : Obligations.TestPagesAreStubs := by
  refine ⟨fun s low o x => ⟨s.ignores_wrTest low o x, s.answers_rdTest low o⟩, fun s o x rest hPage ho => ⟨?_, ?_⟩⟩
  · obtain ⟨t, hExec, hOutput, hChip, ⟨hMemory, hParams, hInput⟩, hDraws⟩ :=
      State.ignores_wrTest { s with input := rest } s.chip.currentPage.testLow o x
    rw [step_of_event rfl, instr_wr_of_isTest (isTest_of_le hPage) ho]
    exact ⟨t, hExec, hOutput, hChip, hMemory, hParams, hDraws, hInput⟩
  · obtain ⟨t, hExec, hOutput, hChip, ⟨hMemory, hParams, hInput⟩, hDraws⟩ :=
      State.answers_rdTest { s with input := rest } s.chip.currentPage.testLow o
    rw [step_of_event rfl, instr_rd_of_isTest (isTest_of_le hPage) ho]
    exact ⟨t, hExec, hOutput, hChip, hMemory, hParams, hDraws, hInput⟩

end Sys2Proof.Machine
end

section
/-! PROOFS. The family of spec/41_voice_state_machine.md: the position (R142), the boundary check and its four loop modes (R143 to R150,
R155, R157), the loops that never drift (R156), the envelope and its ramps (R151 to R154), and the voices that are not advanced (R141,
R211). -/

namespace Sys2Proof.Machine

/-! ### The position (R142) -/

theorem Voice.stepPosition_eq (m : Word) (v : Voice) :
    v.stepPosition m = { v with accumulator := (v.stepPosition m).accumulator } := by
  unfold Voice.stepPosition
  split <;> rfl

theorem Voice.toNat_stepPosition_forward (a : AccumWidth) {v : Voice} (h : v.dir = false) :
    (v.stepPosition (accumMask a)).accumulator.toNat =
      (v.accumulator.toNat + v.freqcount.toNat) % 2 ^ 32 % ((accumMask a).toNat + 1) := by
  simp only [Voice.stepPosition, h, Bool.false_eq_true, if_false, toNat_and_accumMask, BitVec.toNat_add]

theorem Voice.toNat_stepPosition_reverse (a : AccumWidth) {v : Voice} (h : v.dir = true) :
    (v.stepPosition (accumMask a)).accumulator.toNat =
      (v.accumulator.toNat + 2 ^ 32 - v.freqcount.toNat) % 2 ^ 32 % ((accumMask a).toNat + 1) := by
  simp only [Voice.stepPosition, h, if_true, toNat_and_accumMask, toNat_word_sub, Nat.reducePow]

/-- Settles O35, by the two directions. -/
theorem stepMovesThePosition : Obligations.StepMovesThePosition := fun a v =>
  ⟨v.toNat_stepPosition_forward a, v.toNat_stepPosition_reverse a, v.stepPosition_eq _⟩

/-! ### Positions that stay within the mask (R25)

Where the exact result of an operation is a position, the operation gives it: neither the modulus nor the mask cuts it. -/

theorem mod_accumMask_exact {a : AccumWidth} {x y : Nat} (hx : x % 4294967296 = y) (hy : y ≤ (accumMask a).toNat) :
    x % 4294967296 % ((accumMask a).toNat + 1) = y := by
  rw [hx, Nat.mod_eq_of_lt (Nat.lt_succ_of_le hy)]

section
variable {a : AccumWidth} {v : Voice}

theorem Voice.stepPosition_forward_exact (hDir : v.dir = false)
    (hRoom : v.accumulator.toNat + v.freqcount.toNat ≤ (accumMask a).toNat) :
    (v.stepPosition (accumMask a)).accumulator.toNat = v.accumulator.toNat + v.freqcount.toNat := by
  have := (accumMask a).isLt
  rw [toNat_stepPosition_forward a hDir]
  exact mod_accumMask_exact (by omega) hRoom

theorem Voice.stepPosition_reverse_exact (hDir : v.dir = true) (hRoom : v.freqcount.toNat ≤ v.accumulator.toNat)
    (hMask : v.accumulator.toNat ≤ (accumMask a).toNat) :
    (v.stepPosition (accumMask a)).accumulator.toNat = v.accumulator.toNat - v.freqcount.toNat := by
  have := (accumMask a).isLt
  rw [toNat_stepPosition_reverse a hDir]
  exact mod_accumMask_exact (by omega) (by omega)

theorem Voice.wrap_forward_exact (hDir : v.dir = false) (hOver : v.endPos.toNat ≤ v.accumulator.toNat)
    (hMask : v.start.toNat + (v.accumulator.toNat - v.endPos.toNat) ≤ (accumMask a).toNat) :
    (v.wrap (accumMask a)).accumulator.toNat = v.start.toNat + (v.accumulator.toNat - v.endPos.toNat) := by
  have := (accumMask a).isLt
  simp only [Voice.wrap, hDir, Bool.false_eq_true, if_false, toNat_and_accumMask, toNat_word_add,
    BitVec.toNat_sub_of_le (BitVec.le_def.2 hOver)]
  exact mod_accumMask_exact (by omega) hMask

theorem Voice.reflect_forward_exact (hDir : v.dir = false) (hOver : v.endPos.toNat ≤ v.accumulator.toNat)
    (hRoom : v.accumulator.toNat ≤ 2 * v.endPos.toNat) (hMask : v.endPos.toNat ≤ (accumMask a).toNat) :
    (v.reflect (accumMask a)).accumulator.toNat = 2 * v.endPos.toNat - v.accumulator.toNat := by
  have := (accumMask a).isLt
  rw [reflect_forward a v hDir]
  exact mod_accumMask_exact (by omega) (by omega)

theorem Voice.reflect_reverse_exact (hDir : v.dir = true) (hOver : v.accumulator.toNat ≤ v.start.toNat)
    (hMask : 2 * v.start.toNat - v.accumulator.toNat ≤ (accumMask a).toNat) :
    (v.reflect (accumMask a)).accumulator.toNat = 2 * v.start.toNat - v.accumulator.toNat := by
  have := (accumMask a).isLt
  rw [reflect_reverse a v hDir]
  exact mod_accumMask_exact (by omega) hMask

end

/-! ### The writers of `control` as words (R146, R148, R149, R155) -/

theorem Voice.setStop0_eq (v : Voice) : v.setStop0 = { v with control := v.control ||| 0x0001#16 } := rfl

theorem Voice.noteCompletion_eq (v : Voice) : v.noteCompletion = { v with control := v.notedControl } := by
  unfold Voice.noteCompletion Voice.notedControl
  split <;> rfl

theorem Voice.endTransWave_eq (v : Voice) :
    v.endTransWave = { v with control := (v.control &&& 0xFFE7#16) ||| 0x0004#16 } := by
  have hMask : v.control &&& ~~~(BitVec.twoPow 16 3) &&& ~~~(BitVec.twoPow 16 4) = v.control &&& 0xFFE7#16 :=
    BitVec.and_assoc _ _ _
  simp only [Voice.endTransWave, setBit, Bool.false_eq_true, if_false, if_true, hMask]
  rfl

theorem Voice.flipDir_eq (v : Voice) : v.flipDir = { v with control := v.control ^^^ 0x0040#16 } := by
  have hBits : v.flipDir.control = v.control ^^^ BitVec.twoPow 16 6 := by
    apply BitVec.eq_of_getLsbD_eq
    intro j hj
    rw [Voice.flipDir_bit, BitVec.getLsbD_xor, BitVec.getLsbD_twoPow, Voice.dir]
    by_cases h : j = 6
    · simp [h]
    · simp [h, Ne.symm h]
  show { v with control := v.flipDir.control } = _
  rw [hBits]
  rfl

theorem Voice.wrap_eq (m : Word) (v : Voice) :
    v.wrap m = { v with
      accumulator := (if v.dir then v.endPos - (v.start - v.accumulator) else v.start + (v.accumulator - v.endPos)) &&& m } := by
  unfold Voice.wrap
  split <;> rfl

@[simp] theorem Voice.stepPosition_notedControl (m : Word) (v : Voice) :
    (v.stepPosition m).notedControl = v.notedControl := by
  simp only [Voice.notedControl, Voice.stepPosition_irqe, Voice.stepPosition_control]

@[simp] theorem Voice.reflect_noteCompletion_accumulator (m : Word) (v : Voice) :
    (v.noteCompletion.reflect m).accumulator = (v.reflect m).accumulator := by
  unfold Voice.reflect
  cases h : v.dir <;> simp [h, Voice.flipDir]

/-! ### The crossing of either direction (R144, R145) -/

section
variable {v : Voice}

theorem Voice.crosses_forward (hDir : v.dir = false) : v.Crosses ↔ v.endPos.toNat < v.accumulator.toNat := by
  simp [Voice.Crosses, hDir]

theorem Voice.crosses_reverse (hDir : v.dir = true) : v.Crosses ↔ v.accumulator.toNat < v.start.toNat := by
  simp [Voice.Crosses, hDir]

theorem Voice.overshoot_forward (hDir : v.dir = false) : v.overshoot = v.accumulator.toNat - v.endPos.toNat := by
  simp [Voice.overshoot, hDir]

theorem Voice.overshoot_reverse (hDir : v.dir = true) : v.overshoot = v.start.toNat - v.accumulator.toNat := by
  simp [Voice.overshoot, hDir]

end

/-! ### One boundary check (R143 to R149, R155, R157) -/

section
variable {m : Word} {n : Nat} {v : Voice}

theorem Voice.boundary_playsOn (h : v.lei = true ∨ ¬ v.Crosses) : v.boundary m (n + 1) = some v := by
  rw [Voice.boundary_succ]
  rcases h with hLei | hCross
  · rw [if_pos hLei]
  · rw [if_neg (mt Voice.crossed_iff_Crosses.1 hCross), ite_self]

variable (hLei : v.lei = false) (hCross : v.Crosses)
include hLei hCross

theorem Voice.boundary_oneShot (hMode : v.loopMode = .oneShot) : v.boundary m (n + 1) = some v.noteCompletion.setStop0 := by
  simp [Voice.boundary_succ, hLei, Voice.crossed_iff_Crosses.2 hCross, hMode]

theorem Voice.boundary_uni (hMode : v.loopMode = .uni) : v.boundary m (n + 1) = some (v.noteCompletion.wrap m) := by
  simp [Voice.boundary_succ, hLei, Voice.crossed_iff_Crosses.2 hCross, hMode]

theorem Voice.boundary_transWave (hMode : v.loopMode = .transWave) :
    v.boundary m (n + 1) = some (v.noteCompletion.wrap m).endTransWave := by
  simp [Voice.boundary_succ, hLei, Voice.crossed_iff_Crosses.2 hCross, hMode]

theorem Voice.boundary_bowTie (hMode : v.loopMode = .bowTie) (hBounds : v.start.toNat < v.endPos.toNat) :
    v.boundary m (n + 1) = (v.noteCompletion.reflect m).boundary m n := by
  have hult : v.endPos.ult v.start = false := by simp [BitVec.ult, Nat.le_of_lt hBounds]
  simp [Voice.boundary_succ, hLei, Voice.crossed_iff_Crosses.2 hCross, hMode, hult]

end

/-- `Advance` checks the boundary at least twice (R140, R150). -/
theorem Voice.advance_of_boundary {m : Word} {v u : Voice} (h : ∀ n, (v.stepPosition m).boundary m (n + 2) = some u) :
    v.advance m = some u.envelope :=
  Voice.advance_eq_some.2 ⟨u, h _, rfl⟩

/-- Settles O36: the first check answers the voice as the step left it. -/
theorem noCrossingPlaysOn : Obligations.NoCrossingPlaysOn := fun _ v h =>
  Voice.advance_of_boundary fun _ => Voice.boundary_playsOn (h.imp_left (Voice.stepPosition_lei _ v).trans)

/-- Settles O37: the first check sets `STOP0` after the completion flag, and leaves the position. -/
theorem oneShotCrossingStops : Obligations.OneShotCrossingStops := by
  intro a v hLei hMode hCross
  rw [Voice.advance_of_boundary fun n => Voice.boundary_oneShot (by simpa) hCross (by simpa),
    Voice.setStop0_eq, Voice.noteCompletion_eq, Voice.stepPosition_notedControl]

/-- A check that wraps writes the completion flag and the position (R146, R147). -/
theorem Voice.wrap_noteCompletion_stepPosition (m : Word) (v : Voice) :
    ((v.stepPosition m).noteCompletion.wrap m) = { v.stepPosition m with
      control := v.notedControl
      accumulator :=
        (if v.dir then v.endPos - (v.start - (v.stepPosition m).accumulator)
        else v.start + ((v.stepPosition m).accumulator - v.endPos)) &&& m } := by
  rw [Voice.wrap_eq]
  simp only [Voice.noteCompletion_dir, Voice.noteCompletion_start, Voice.noteCompletion_endPos,
    Voice.noteCompletion_accumulator, Voice.stepPosition_dir, Voice.stepPosition_start, Voice.stepPosition_endPos]
  rw [Voice.noteCompletion_eq, Voice.stepPosition_notedControl]

/-- Settles O38: the first check wraps, and a uni-directional wrap is not checked again. -/
theorem uniLoopCrossingWraps : Obligations.UniLoopCrossingWraps := by
  intro a v hLei hMode hCross
  rw [Voice.advance_of_boundary fun n => Voice.boundary_uni (by simpa) hCross (by simpa),
    Voice.wrap_noteCompletion_stepPosition]

/-- Settles O39: the first check wraps as a uni-directional one and then ends the loop. -/
theorem transWaveCrossingWrapsOnce : Obligations.TransWaveCrossingWrapsOnce := by
  intro a v hLei hMode hCross
  rw [Voice.advance_of_boundary fun n => Voice.boundary_transWave (by simpa) hCross (by simpa),
    Voice.wrap_noteCompletion_stepPosition, Voice.endTransWave_eq]

/-! ### The bow-tie loop (R149, R150, R156 item 2) -/

/-- Where one reflection puts an overshoot of at most the loop: between the bounds, as far inside as the position was outside. -/
theorem Voice.reflect_within_loop {a : AccumWidth} {v : Voice} (hBounds : v.start.toNat < v.endPos.toNat)
    (hMask : v.endPos.toNat ≤ (accumMask a).toNat) (hCross : v.Crosses)
    (hOver : v.overshoot ≤ v.endPos.toNat - v.start.toNat) :
    (v.dir = false → v.start.toNat ≤ (v.reflect (accumMask a)).accumulator.toNat ∧
      (v.reflect (accumMask a)).accumulator.toNat + v.accumulator.toNat = 2 * v.endPos.toNat) ∧
    (v.dir = true → (v.reflect (accumMask a)).accumulator.toNat ≤ v.endPos.toNat ∧
      (v.reflect (accumMask a)).accumulator.toNat + v.accumulator.toNat = 2 * v.start.toNat) := by
  constructor <;> intro hDir
  · have hPast := (Voice.crosses_forward hDir).1 hCross
    rw [Voice.overshoot_forward hDir] at hOver
    rw [Voice.reflect_forward_exact hDir hPast.le (by omega) hMask]
    omega
  · have hPast := (Voice.crosses_reverse hDir).1 hCross
    rw [Voice.overshoot_reverse hDir] at hOver
    rw [Voice.reflect_reverse_exact hDir hPast.le (by omega)]
    omega

/-- A bow-tie crossing by at most the loop: the second check finds no crossing (R149). -/
theorem Voice.advance_reflects {a : AccumWidth} {v : Voice} (hLei : v.lei = false) (hMode : v.loopMode = .bowTie)
    (hBounds : v.start.toNat < v.endPos.toNat) (hMask : v.endPos.toNat ≤ (accumMask a).toNat)
    (hCross : (v.stepPosition (accumMask a)).Crosses)
    (hOver : (v.stepPosition (accumMask a)).overshoot ≤ v.endPos.toNat - v.start.toNat) :
    v.advance (accumMask a) = some ((v.stepPosition (accumMask a)).noteCompletion.reflect (accumMask a)).envelope := by
  obtain ⟨hForward, hReverse⟩ := Voice.reflect_within_loop (a := a) (by simpa) (by simpa) hCross (by simpa)
  refine Voice.advance_of_boundary fun n => ?_
  rw [Voice.boundary_bowTie (by simpa) hCross (by simpa) (by simpa)]
  refine Voice.boundary_playsOn (.inr ?_)
  cases hDir : v.dir
  · have hInside := (hForward (by simpa)).1
    rw [Voice.crosses_reverse (by simpa), Voice.reflect_noteCompletion_accumulator]
    simpa using hInside
  · have hInside := (hReverse (by simpa)).1
    rw [Voice.crosses_forward (by simpa), Voice.reflect_noteCompletion_accumulator]
    simpa using hInside

/-- What a check that reflects writes: the completion flag, `DIR` and the position (R146, R149). -/
theorem Voice.reflect_noteCompletion_stepPosition (m : Word) (v : Voice) :
    (v.stepPosition m).noteCompletion.reflect m = { v.stepPosition m with
      control := v.notedControl ^^^ 0x0040#16
      accumulator := ((v.stepPosition m).reflect m).accumulator } := by
  rw [Voice.reflect_eq, Voice.flipDir_eq, Voice.reflect_noteCompletion_accumulator, Voice.noteCompletion_eq,
    Voice.stepPosition_notedControl]

/-- Settles O40: the position is the one that the single reflection computes. -/
theorem bowTieCrossingReflects : Obligations.BowTieCrossingReflects := by
  intro a v hLei hMode hWithin hBounds hCross hOver
  obtain ⟨-, hEnd, -⟩ := hWithin
  have hMask := toNat_le_of_masked hEnd
  obtain ⟨hForward, hReverse⟩ := Voice.reflect_within_loop (a := a) (by simpa) (by simpa) hCross (by simpa)
  refine ⟨((v.stepPosition (accumMask a)).reflect (accumMask a)).accumulator, ?_, fun hDir => ?_, fun hDir => ?_⟩
  · rw [Voice.advance_reflects hLei hMode hBounds hMask hCross hOver, Voice.reflect_noteCompletion_stepPosition]
  · have hPos := (hForward (by simpa)).2
    have hPast := (Voice.crosses_forward (by simpa)).1 hCross
    rw [Voice.stepPosition_endPos] at hPos hPast
    omega
  · have hPos := (hReverse (by simpa)).2
    have hPast := (Voice.crosses_reverse (by simpa)).1 hCross
    rw [Voice.stepPosition_start] at hPos hPast
    omega

/-- Settles O42: the step ends at `end - 1 + freqcount`, which one reflection brings back. -/
theorem bowTieIsSymmetric : Obligations.BowTieIsSymmetric := by
  intro a v hLei hDir hMode hBounds hAt hStep hStepMax hMask
  have hPos := Voice.stepPosition_forward_exact (a := a) hDir (by omega)
  rw [hAt] at hPos
  have hCross : (v.stepPosition (accumMask a)).Crosses := by
    rw [Voice.crosses_forward (by simpa), Voice.stepPosition_endPos]
    omega
  have hOver : (v.stepPosition (accumMask a)).overshoot ≤ v.endPos.toNat - v.start.toNat := by
    rw [Voice.overshoot_forward (by simpa), Voice.stepPosition_endPos]
    omega
  refine ⟨_, Voice.advance_reflects hLei hMode hBounds (by omega) hCross hOver, by simp [hDir], ?_⟩
  have hBack := ((Voice.reflect_within_loop (a := a) (by simpa) (by simp; omega) hCross (by simpa)).1 (by simpa)).2
  simp only [Voice.stepPosition_endPos, hPos] at hBack
  simp only [Voice.envelope_endPos, Voice.envelope_accumulator, Voice.reflect_endPos, Voice.noteCompletion_endPos,
    Voice.stepPosition_endPos, Voice.reflect_noteCompletion_accumulator]
  omega

/-! ### The phase over any number of `Advance`s (R156)

A loop does not drift when each `Advance` moves the phase by the pitch, modulo the round. -/

/-- From `v` to `w` the phase moves by `n` pitches of `v`, modulo `k` loops of `v`. -/
def Voice.PhaseMoves (v : Voice) (k : Int) (n : Nat) (w : Voice) : Prop :=
  w.phase ≡ v.phase + n * v.freqcount.toNat [ZMOD k * (v.endPos.toNat - v.start.toNat)]

/-- What each `Advance` does to a voice with `P`, any number of them does. -/
theorem Voice.advances_phase {m : Word} {P : Voice → Prop} {k : Int}
    (hAdvance : ∀ v, P v → ∃ w, v.advance m = some w ∧ P w ∧ v.PhaseMoves k 1 w) (n : Nat) :
    ∀ v, P v → ∃ w, v.advances m n = some w ∧ P w ∧ w.start = v.start ∧ w.endPos = v.endPos ∧
      v.PhaseMoves k n w := by
  induction n with
  | zero => exact fun v hP => ⟨v, rfl, hP, rfl, rfl, by simp [PhaseMoves]⟩
  | succ n ih =>
    intro v hP
    obtain ⟨u, hu, hPu, hPhaseU⟩ := hAdvance v hP
    obtain ⟨w, hw, hPw, hStart, hEnd, hPhase⟩ := ih u hPu
    refine ⟨w, by rw [advances, hu]; exact hw, hPw, hStart.trans (advance_start hu), hEnd.trans (advance_endPos hu), ?_⟩
    rw [PhaseMoves, advance_start hu, advance_endPos hu, advance_freqcount hu] at hPhase
    calc w.phase ≡ u.phase + n * v.freqcount.toNat [ZMOD _] := hPhase
      _ ≡ v.phase + (1 : Nat) * v.freqcount.toNat + n * v.freqcount.toNat [ZMOD _] := hPhaseU.add_right _
      _ = v.phase + (n + 1 : Nat) * v.freqcount.toNat := by push_cast; ring

/-- The position is between the bounds. -/
def Voice.Inside (v : Voice) : Prop :=
  v.start.toNat ≤ v.accumulator.toNat ∧ v.accumulator.toNat ≤ v.endPos.toNat

theorem Voice.phase_forward {v : Voice} (h : v.dir = false) :
    v.phase = (v.accumulator.toNat : Int) - v.start.toNat := by
  simp [Voice.phase, h]

theorem Voice.phase_reverse {v : Voice} (h : v.dir = true) :
    v.phase = 2 * ((v.endPos.toNat : Int) - v.start.toNat) - (v.accumulator.toNat - v.start.toNat) := by
  simp [Voice.phase, h]

theorem Voice.Inside.envelope {v : Voice} (h : v.Inside) : v.envelope.Inside := by
  simpa [Inside] using h

@[simp] theorem Voice.envelope_phase (v : Voice) : v.envelope.phase = v.phase := by
  simp [Voice.phase]

/-! ### The uni-directional loop never drifts (R156 item 1) -/

/-- A forward uni-directional voice with a pitch of at most the loop, and a step that leaves the position space nowhere. -/
structure Voice.UniLoops (m : Word) (v : Voice) : Prop where
  lei : v.lei = false
  dir : v.dir = false
  mode : v.loopMode = .uni
  pitch : v.freqcount.toNat ≤ v.endPos.toNat - v.start.toNat
  room : v.endPos.toNat + v.freqcount.toNat ≤ m.toNat

theorem Voice.UniLoops.stepPosition {m : Word} {v : Voice} (h : v.UniLoops m) : (v.stepPosition m).UniLoops m := by
  obtain ⟨hLei, hDir, hMode, hPitch, hRoom⟩ := h
  constructor <;> simpa

theorem Voice.UniLoops.wrap {m : Word} {v : Voice} (h : v.UniLoops m) : (v.noteCompletion.wrap m).UniLoops m := by
  obtain ⟨hLei, hDir, hMode, hPitch, hRoom⟩ := h
  constructor <;> simpa

theorem Voice.UniLoops.envelope {m : Word} {v : Voice} (h : v.UniLoops m) : v.envelope.UniLoops m := by
  obtain ⟨hLei, hDir, hMode, hPitch, hRoom⟩ := h
  constructor <;> simpa

/-- A wrap of a voice beyond `end` by at most its pitch takes it back by the loop. -/
theorem Voice.UniLoops.wrap_exact {a : AccumWidth} {v : Voice} (h : v.UniLoops (accumMask a))
    (hPast : v.endPos.toNat < v.accumulator.toNat) (hReach : v.accumulator.toNat ≤ v.endPos.toNat + v.freqcount.toNat) :
    (v.noteCompletion.wrap (accumMask a)).Inside ∧
      (v.noteCompletion.wrap (accumMask a)).phase = v.phase - (v.endPos.toNat - v.start.toNat) := by
  obtain ⟨-, hDir, -, hPitch, hRoom⟩ := h
  have hPos : (v.noteCompletion.wrap (accumMask a)).accumulator.toNat =
      v.start.toNat + (v.accumulator.toNat - v.endPos.toNat) := by
    simpa using wrap_forward_exact (a := a) (v := v.noteCompletion) (by simpa) (by simpa using hPast.le) (by simp; omega)
  rw [phase_forward hDir, phase_forward (by simpa), Inside, hPos, wrap_start, wrap_endPos, noteCompletion_start,
    noteCompletion_endPos]
  omega

/-- One `Advance`: the step, and when it goes beyond `end` the loop less. -/
theorem Voice.UniLoops.advance {a : AccumWidth} {v : Voice} (h : v.UniLoops (accumMask a) ∧ v.Inside) :
    ∃ w, v.advance (accumMask a) = some w ∧ (w.UniLoops (accumMask a) ∧ w.Inside) ∧
      v.PhaseMoves 1 1 w := by
  obtain ⟨hv, hStart, hEnd⟩ := h
  have hRoom := hv.room
  have hu := hv.stepPosition
  have hPos := stepPosition_forward_exact (a := a) hv.dir (by omega)
  have hStep : (v.stepPosition (accumMask a)).phase = v.phase + v.freqcount.toNat := by
    rw [phase_forward hv.dir, phase_forward hu.dir, hPos, stepPosition_start]
    omega
  by_cases hPast : v.endPos.toNat < (v.stepPosition (accumMask a)).accumulator.toNat
  · obtain ⟨hIn, hPhase⟩ := hu.wrap_exact (by simpa) (by simp; omega)
    refine ⟨_, advance_of_boundary fun n => boundary_uni hu.lei ((crosses_forward hu.dir).2 (by simpa)) hu.mode,
      ⟨hu.wrap.envelope, hIn.envelope⟩, Int.modEq_iff_dvd.2 ⟨1, ?_⟩⟩
    rw [envelope_phase, hPhase, hStep, stepPosition_start, stepPosition_endPos]
    ring
  · refine ⟨_, advance_of_boundary fun n => boundary_playsOn (.inr ?_), ⟨hu.envelope, Inside.envelope ?_⟩, ?_⟩
    · rwa [crosses_forward hu.dir, stepPosition_endPos]
    · rw [Inside, hPos, stepPosition_start, stepPosition_endPos]
      omega
    · simp [PhaseMoves, hStep]

/-- Settles O41: `Voice.UniLoops` and the place between the bounds are kept, and forward the phase is the position. -/
theorem uniLoopNeverDrifts : Obligations.UniLoopNeverDrifts := by
  intro a v n hLei hDir hMode hBounds hPitch hStart hEnd hRoom
  obtain ⟨w, hw, ⟨hLoops, hStartW, hEndW⟩, eStart, eEnd, hPhase⟩ :=
    Voice.advances_phase (fun _ => Voice.UniLoops.advance) n v ⟨⟨hLei, hDir, hMode, hPitch, hRoom⟩, hStart, hEnd⟩
  rw [eStart] at hStartW
  rw [eEnd] at hEndW
  refine ⟨w, hw, hStartW, hEndW, Int.natCast_modEq_iff.1 ?_⟩
  rw [Voice.PhaseMoves, Voice.phase_forward hLoops.dir, Voice.phase_forward hDir, eStart, one_mul] at hPhase
  push_cast [hStart, hStartW, hBounds.le]
  exact hPhase

/-! ### The bow-tie loop never drifts (R149, R150) -/

/-- A bow-tie voice whose pitch leaves the position space from neither bound. -/
structure Voice.BowTieLoops (m : Word) (v : Voice) : Prop where
  lei : v.lei = false
  mode : v.loopMode = .bowTie
  bounds : v.start.toNat < v.endPos.toNat
  roomBelow : v.freqcount.toNat ≤ v.start.toNat
  roomAbove : v.endPos.toNat + v.freqcount.toNat ≤ m.toNat

/-- The position is beyond the bound ahead by at most the pitch, and not beyond the one behind: what holds after a step from
between the bounds, and then at every check of the chain. -/
def Voice.InReach (v : Voice) : Prop :=
  (v.dir = false → v.start.toNat ≤ v.accumulator.toNat ∧ v.accumulator.toNat ≤ v.endPos.toNat + v.freqcount.toNat) ∧
  (v.dir = true → v.start.toNat ≤ v.accumulator.toNat + v.freqcount.toNat ∧ v.accumulator.toNat ≤ v.endPos.toNat)

theorem Voice.inReach_forward {v : Voice} (hDir : v.dir = false) : v.InReach ↔
    v.start.toNat ≤ v.accumulator.toNat ∧ v.accumulator.toNat ≤ v.endPos.toNat + v.freqcount.toNat := by
  simp [Voice.InReach, hDir]

theorem Voice.inReach_reverse {v : Voice} (hDir : v.dir = true) : v.InReach ↔
    v.start.toNat ≤ v.accumulator.toNat + v.freqcount.toNat ∧ v.accumulator.toNat ≤ v.endPos.toNat := by
  simp [Voice.InReach, hDir]

theorem Voice.BowTieLoops.stepPosition {m : Word} {v : Voice} (h : v.BowTieLoops m) : (v.stepPosition m).BowTieLoops m := by
  obtain ⟨hLei, hMode, hBounds, hBelow, hAbove⟩ := h
  constructor <;> simpa

theorem Voice.BowTieLoops.reflect {m : Word} {v : Voice} (h : v.BowTieLoops m) :
    (v.noteCompletion.reflect m).BowTieLoops m := by
  obtain ⟨hLei, hMode, hBounds, hBelow, hAbove⟩ := h
  constructor <;> simpa

theorem Voice.BowTieLoops.envelope {m : Word} {v : Voice} (h : v.BowTieLoops m) : v.envelope.BowTieLoops m := by
  obtain ⟨hLei, hMode, hBounds, hBelow, hAbove⟩ := h
  constructor <;> simpa

theorem Voice.InReach.inside {v : Voice} (h : v.InReach) (hCross : ¬ v.Crosses) : v.Inside := by
  cases hDir : v.dir
  · rw [crosses_forward hDir] at hCross
    exact ⟨(h.1 hDir).1, not_lt.1 hCross⟩
  · rw [crosses_reverse hDir] at hCross
    exact ⟨not_lt.1 hCross, (h.2 hDir).2⟩

/-- A step from between the bounds. -/
theorem Voice.BowTieLoops.step_inReach {a : AccumWidth} {v : Voice} (h : v.BowTieLoops (accumMask a)) (hIn : v.Inside) :
    (v.stepPosition (accumMask a)).InReach ∧ (v.stepPosition (accumMask a)).phase = v.phase + v.freqcount.toNat := by
  obtain ⟨-, -, hBounds, hBelow, hAbove⟩ := h
  obtain ⟨hStart, hEnd⟩ := hIn
  cases hDir : v.dir with
  | false =>
    have hPos := stepPosition_forward_exact (a := a) hDir (by omega)
    rw [inReach_forward (by simpa), phase_forward hDir, phase_forward (by simpa), hPos, stepPosition_start,
      stepPosition_endPos, stepPosition_freqcount]
    omega
  | true =>
    have hPos := stepPosition_reverse_exact (a := a) hDir (by omega) (by omega)
    rw [inReach_reverse (by simpa), phase_reverse hDir, phase_reverse (by simpa), hPos, stepPosition_start,
      stepPosition_endPos, stepPosition_freqcount]
    omega

/-- One reflection of the chain: seen from the other direction, the same place of the round or of the one before. -/
theorem Voice.BowTieLoops.reflect_inReach {a : AccumWidth} {v : Voice} (h : v.BowTieLoops (accumMask a)) (hReach : v.InReach)
    (hCross : v.Crosses) :
    (v.noteCompletion.reflect (accumMask a)).InReach ∧
      (v.noteCompletion.reflect (accumMask a)).phase ≡ v.phase [ZMOD 2 * (v.endPos.toNat - v.start.toNat)] := by
  obtain ⟨-, -, hBounds, hBelow, hAbove⟩ := h
  rcases hCross with ⟨hDir, hPast⟩ | ⟨hDir, hPast⟩
  · rw [inReach_forward hDir] at hReach
    have hPos := reflect_forward_exact (a := a) hDir hPast.le (by omega) (by omega)
    have hPhase : (v.noteCompletion.reflect (accumMask a)).phase = v.phase := by
      rw [phase_forward hDir, phase_reverse (by simpa), reflect_noteCompletion_accumulator, hPos, reflect_start,
        reflect_endPos, noteCompletion_start, noteCompletion_endPos]
      omega
    rw [hPhase, inReach_reverse (by simpa), reflect_noteCompletion_accumulator, hPos, reflect_start, reflect_endPos,
      reflect_freqcount, noteCompletion_start, noteCompletion_endPos, noteCompletion_freqcount]
    exact ⟨by omega, .refl _⟩
  · rw [inReach_reverse hDir] at hReach
    have hPos := reflect_reverse_exact (a := a) hDir hPast.le (by omega)
    have hPhase : (v.noteCompletion.reflect (accumMask a)).phase =
        v.phase - 2 * (v.endPos.toNat - v.start.toNat) := by
      rw [phase_reverse hDir, phase_forward (by simpa), reflect_noteCompletion_accumulator, hPos, reflect_start,
        noteCompletion_start]
      omega
    rw [hPhase, inReach_forward (by simpa), reflect_noteCompletion_accumulator, hPos, reflect_start, reflect_endPos,
      reflect_freqcount, noteCompletion_start, noteCompletion_endPos, noteCompletion_freqcount]
    exact ⟨by omega, Int.modEq_iff_dvd.2 ⟨1, by ring⟩⟩

/-- The chain of reflections ends between the bounds, at the same place of the round (R149, R150). -/
theorem Voice.BowTieLoops.boundary {a : AccumWidth} {w : Voice} (n : Nat) : ∀ {v : Voice}, v.BowTieLoops (accumMask a) →
    v.InReach → v.boundary (accumMask a) n = some w →
      w.BowTieLoops (accumMask a) ∧ w.Inside ∧ w.phase ≡ v.phase [ZMOD 2 * (v.endPos.toNat - v.start.toNat)] := by
  induction n with
  | zero => intro v _ _ h; simp [Voice.boundary] at h
  | succ n ih =>
    intro v hv hReach h
    by_cases hCross : v.Crosses
    · rw [boundary_bowTie hv.lei hCross hv.mode hv.bounds] at h
      obtain ⟨hReach', hPhase⟩ := hv.reflect_inReach hReach hCross
      obtain ⟨hw, hIn, hPhaseW⟩ := ih hv.reflect hReach' h
      simp only [reflect_start, reflect_endPos, noteCompletion_start, noteCompletion_endPos] at hPhaseW
      exact ⟨hw, hIn, hPhaseW.trans hPhase⟩
    · rw [boundary_playsOn (.inr hCross), Option.some_inj] at h
      subst h
      exact ⟨hv, hReach.inside hCross, .refl _⟩

/-- One `Advance`: the step moves the phase by the pitch, and the chain keeps it. -/
theorem Voice.BowTieLoops.advance {a : AccumWidth} {v : Voice} (h : v.BowTieLoops (accumMask a) ∧ v.Inside) :
    ∃ w, v.advance (accumMask a) = some w ∧ (w.BowTieLoops (accumMask a) ∧ w.Inside) ∧
      v.PhaseMoves 2 1 w := by
  obtain ⟨hv, hIn⟩ := h
  obtain ⟨hReach, hStep⟩ := hv.step_inReach hIn
  have hu := hv.stepPosition
  obtain ⟨u, hBoundary⟩ := boundary_total a _ _ hu.lei hu.mode hu.bounds (toNat_le_of_masked (stepPosition_masked _ v)) le_rfl
  obtain ⟨hw, hInside, hPhase⟩ := hu.boundary _ hReach hBoundary
  refine ⟨u.envelope, advance_eq_some.2 ⟨u, hBoundary, rfl⟩, ⟨hw.envelope, hInside.envelope⟩, ?_⟩
  rw [hStep, stepPosition_start, stepPosition_endPos] at hPhase
  simpa [PhaseMoves] using hPhase

/-- Settles O43: `Voice.BowTieLoops` and the place between the bounds are kept. -/
theorem bowTieNeverDrifts : Obligations.BowTieNeverDrifts := by
  intro a v n hLei hMode hBounds hStart hEnd hBelow hAbove
  obtain ⟨w, hw, ⟨-, hStartW, hEndW⟩, eStart, eEnd, hPhase⟩ :=
    Voice.advances_phase (fun _ => Voice.BowTieLoops.advance) n v ⟨⟨hLei, hMode, hBounds, hBelow, hAbove⟩, hStart, hEnd⟩
  exact ⟨w, hw, eStart ▸ hStartW, eEnd ▸ hEndW, eStart, eEnd, hPhase⟩

/-! ### The envelope's counter (R151) -/

theorem Voice.envelope_of_zero {v : Voice} (h : v.envelopeCount = 0#16) : v.envelope = v := if_pos h

/-- The ramps do not read the counter. -/
theorem Voice.tick_setEnvelopeCount (v : Voice) (n : Half) :
    Voice.tick { v with envelopeCount := n } = { v.tick with envelopeCount := n } := by
  by_cases h : v.filtcount = 0#3 <;> simp [Voice.tick, Voice.coefficientRamps, Voice.volumeRamps, h]

theorem Voice.envelope_of_one {v : Voice} (h : v.envelopeCount = 1#16) :
    v.envelope = { v.tick with envelopeCount := 0 } := by
  simp [Voice.envelope, h, Voice.tick_setEnvelopeCount]

theorem Voice.envelope_of_one_lt {v : Voice} (h : 1 < v.envelopeCount.toNat) :
    v.envelope = { v with envelopeCount := v.envelopeCount - 1#16 } := by
  have h0 : v.envelopeCount ≠ 0#16 := fun e => by simp [e] at h
  have h1 : v.envelopeCount - 1#16 ≠ 0#16 := fun e => by
    rw [BitVec.sub_eq_iff_eq_add.1 e] at h
    exact absurd h (by decide)
  simp [Voice.envelope, h0, h1]

/-- Before its last run the envelope only counts down. -/
theorem Voice.iterate_envelope_of_lt {v : Voice} {k : Nat} (h : k < v.envelopeCount.toNat) :
    Voice.envelope^[k] v = { v with envelopeCount := v.envelopeCount - BitVec.ofNat 16 k } := by
  induction k with
  | zero => simp
  | succ k ih =>
    have hLeft : 1 < (v.envelopeCount - BitVec.ofNat 16 k).toNat := by
      have := v.envelopeCount.isLt
      rw [BitVec.toNat_sub, BitVec.toNat_ofNat]
      omega
    rw [Function.iterate_succ_apply', ih (by omega), Voice.envelope_of_one_lt hLeft, BitVec.ofNat_add, BitVec.sub_sub]

/-- The last run ticks. -/
theorem Voice.iterate_envelope_of_count {v : Voice} (h : 0 < v.envelopeCount.toNat) :
    Voice.envelope^[v.envelopeCount.toNat] v = { v.tick with envelopeCount := 0 } := by
  obtain ⟨k, hk⟩ := Nat.exists_eq_add_of_lt h
  rw [Nat.zero_add] at hk
  have hLast : v.envelopeCount - BitVec.ofNat 16 k = 1#16 := by
    apply BitVec.eq_of_toNat_eq
    have := v.envelopeCount.isLt
    rw [BitVec.toNat_sub, BitVec.toNat_ofNat, BitVec.toNat_ofNat]
    omega
  rw [hk, Function.iterate_succ_apply', Voice.iterate_envelope_of_lt (by omega), Voice.envelope_of_one hLast,
    Voice.tick_setEnvelopeCount]

/-- Settles O44: the runs before the count's end, the one at its end, and the ones after it. -/
theorem envelopeTicksOnce : Obligations.EnvelopeTicksOnce := by
  refine fun v k => ⟨Voice.iterate_envelope_of_lt, fun hPos hLe => ?_,
    fun h => Function.iterate_fixed (Voice.envelope_of_zero h) k⟩
  obtain ⟨j, rfl⟩ := Nat.exists_eq_add_of_le' hLe
  rw [Function.iterate_add_apply, Voice.iterate_envelope_of_count hPos]
  exact Function.iterate_fixed (Voice.envelope_of_zero rfl) j

/-! ### The ramps (R153, R154) -/

/-- The clamped sum, a ramp of 0 included: what it adds to a value within 16 bits changes nothing. -/
theorem toNat_rampValue_eq (x : Half) (ramp : Byte) :
    ((rampValue x ramp).toNat : Int) = max 0 (min 65535 ((x.toNat : Int) + ramp.toInt)) := by
  have := x.isLt
  rw [toNat_rampValue]
  split
  · next h =>
    rw [h, BitVec.toInt_zero]
    omega
  · unfold clamp
    split_ifs <;> omega

theorem rampValue_zero (x : Half) : rampValue x 0#8 = x := if_pos rfl

/-- Settles O45: each volume is its ramped value. -/
theorem volumeRampsClamp : Obligations.VolumeRampsClamp := fun _ =>
  ⟨toNat_rampValue_eq _ _, toNat_rampValue_eq _ _, rfl,
    fun h => (congrArg (rampValue _) h).trans (rampValue_zero _),
    fun h => (congrArg (rampValue _) h).trans (rampValue_zero _)⟩

theorem Voice.tick_k1 (v : Voice) : v.tick.k1 = if v.filtcount = 0#3 then rampValue v.k1 v.k1Ramp else v.k1 :=
  apply_ite Voice.k1 _ _ _

theorem Voice.tick_k2 (v : Voice) : v.tick.k2 = if v.filtcount = 0#3 then rampValue v.k2 v.k2Ramp else v.k2 :=
  apply_ite Voice.k2 _ _ _

theorem Voice.tick_filtcount (v : Voice) : v.tick.filtcount = v.filtcount + 1#3 :=
  (apply_ite Voice.filtcount _ _ _).trans (ite_self _)

theorem Voice.iterate_tick_filtcount (v : Voice) (n : Nat) :
    (Voice.tick^[n] v).filtcount = v.filtcount + BitVec.ofNat 3 n := by
  induction n with
  | zero => simp
  | succ n ih => rw [Function.iterate_succ_apply', Voice.tick_filtcount, ih, BitVec.ofNat_add, BitVec.add_assoc]

section
variable {k : Voice → Half} {ramp : Voice → Byte} (hRamp : ∀ v : Voice, ramp v.tick = ramp v)
include hRamp

theorem Voice.iterate_tick_ramp (v : Voice) (n : Nat) : ramp (Voice.tick^[n] v) = ramp v := by
  induction n with
  | zero => rfl
  | succ n ih => rw [Function.iterate_succ_apply', hRamp, ih]

variable (hk : ∀ v : Voice, k v.tick = if v.filtcount = 0#3 then rampValue (k v) (ramp v) else k v)
include hk

/-- A coefficient waits until `filtcount` has come to 0, moves at that tick, and waits for the rest of eight ticks. -/
theorem Voice.iterate_tick_coefficient (v : Voice) {n : Nat} (hn : n ≤ 8) :
    k (Voice.tick^[n] v) = if n ≤ (-v.filtcount).toNat then k v else rampValue (k v) (ramp v) := by
  induction n with
  | zero => simp
  | succ n ih =>
    have hMoves : (Voice.tick^[n] v).filtcount = 0#3 ↔ n = (-v.filtcount).toNat := by
      have hWord : ∀ f : BitVec 3, ∀ n < 8, f + BitVec.ofNat 3 n = 0#3 ↔ n = (-f).toNat := by decide
      rw [Voice.iterate_tick_filtcount, hWord _ n hn]
    rw [Function.iterate_succ_apply', hk, Voice.iterate_tick_ramp hRamp, ih (by omega)]
    simp only [hMoves]
    rcases Nat.lt_trichotomy n (-v.filtcount).toNat with hBefore | hAt | hAfter
    · rw [if_neg hBefore.ne, if_pos hBefore.le, if_pos (Nat.succ_le_of_lt hBefore)]
    · rw [if_pos hAt, if_pos hAt.le, if_neg (by omega)]
    · rw [if_neg hAfter.ne', if_neg (by omega), if_neg (by omega)]

theorem Voice.iterate_eight_ticks_coefficient (v : Voice) :
    k (Voice.tick^[8] v) = rampValue (k v) (ramp v) := by
  rw [Voice.iterate_tick_coefficient hRamp hk v le_rfl, if_neg (by have := (-v.filtcount).isLt; omega)]

end

/-- Settles O46: `k1` and `k2` are two coefficients of the one gate. -/
theorem coefficientsRampAtOneEighth : Obligations.CoefficientsRampAtOneEighth := by
  intro v
  refine ⟨fun h => ?_, fun h => ?_, ?_, ?_, ?_, ?_⟩
  · rw [Voice.tick_k1, Voice.tick_k2, if_pos h, if_pos h]
    exact ⟨toNat_rampValue_eq _ _, toNat_rampValue_eq _ _⟩
  · rw [Voice.tick_k1, Voice.tick_k2, if_neg h, if_neg h]
    exact ⟨rfl, rfl⟩
  · rw [Voice.tick_filtcount, BitVec.toNat_add]
    rfl
  · rw [Voice.iterate_eight_ticks_coefficient Voice.tick_k1Ramp Voice.tick_k1]
    exact toNat_rampValue_eq _ _
  · rw [Voice.iterate_eight_ticks_coefficient Voice.tick_k2Ramp Voice.tick_k2]
    exact toNat_rampValue_eq _ _
  · rw [Voice.iterate_tick_filtcount]
    exact BitVec.add_zero _

/-! ### Voices that are not advanced (R141, R211) -/

/-- Settles O26: both are stopped after the degenerate check, which sets `STOP0` of the second. -/
theorem stoppedAndDegenerateVoices : Obligations.StoppedAndDegenerateVoices := by
  intro p mem v d
  constructor
  · intro hNe hStopped
    have hCheck := Voice.degenerateCheck_of_ne hNe
    rw [Voice.service_stopped (by rwa [hCheck]), hCheck]
  · intro hEq
    have hCheck := Voice.degenerateCheck_of_eq hEq
    rw [Voice.service_stopped (by rw [hCheck, Voice.setStop0_stopped]), hCheck, Voice.setStop0_eq]

end Sys2Proof.Machine
end

section
/-! PROOFS. The family of spec/42_fetch_decode_interp.md: the default u-law table (R176, R177) and the interpolation between two
neighbouring samples (R178). -/

namespace Sys2Proof.Machine

/-! ### The default u-law table (R176, R177)

The table is a function of the complemented byte: its low seven bits fix the magnitude, its top bit the sign. -/

/-- The magnitude R176 gives the seven bits `e`, `m` of the complemented byte. -/
def ulawMagnitude (n : Nat) : Nat := (n % 16 * 8 + 0x84) * 2 ^ (n / 16) - 0x84

/-- The product is at least `0x84`, so the model's subtraction over the integers is the one over the naturals. -/
theorem cast_ulawMagnitude (n : Nat) :
    (ulawMagnitude n : Int) = (((n % 16 * 8 + 0x84) * 2 ^ (n / 16) : Nat) : Int) - 0x84 := by
  have hFirst : 0x84 * 1 ≤ (n % 16 * 8 + 0x84) * 2 ^ (n / 16) := Nat.mul_le_mul (by omega) Nat.one_le_two_pow
  exact Nat.cast_sub hFirst

theorem ulawMagnitude_le {n : Nat} (h : n < 128) : ulawMagnitude n ≤ 32124 := by
  have hMantissa : n % 16 * 8 + 0x84 ≤ 252 := by omega
  have hPower : 2 ^ (n / 16) ≤ 2 ^ 7 := Nat.pow_le_pow_right (by decide) (by omega)
  have hProduct := Nat.mul_le_mul hMantissa hPower
  unfold ulawMagnitude
  omega

/-- One step up within a segment adds `8 * 2^e`; the first value of a segment lies above the last one of the segment below. -/
theorem ulawMagnitude_lt_succ (n : Nat) : ulawMagnitude n < ulawMagnitude (n + 1) := by
  have hPower : 1 ≤ 2 ^ (n / 16) := Nat.one_le_two_pow
  unfold ulawMagnitude
  by_cases hLast : n % 16 = 15
  · have hMantissa : (n + 1) % 16 = 0 := by omega
    have hExponent : (n + 1) / 16 = n / 16 + 1 := by omega
    rw [hLast, hMantissa, hExponent, Nat.pow_succ]
    omega
  · have hMantissa : (n + 1) % 16 = n % 16 + 1 := by omega
    have hExponent : (n + 1) / 16 = n / 16 := by omega
    have hStep : (n % 16 * 8 + 0x84) * 2 ^ (n / 16) < ((n % 16 + 1) * 8 + 0x84) * 2 ^ (n / 16) :=
      Nat.mul_lt_mul_of_pos_right (by omega) hPower
    have hFirst : 0x84 * 1 ≤ (n % 16 * 8 + 0x84) * 2 ^ (n / 16) := Nat.mul_le_mul (by omega) hPower
    rw [hMantissa, hExponent]
    omega

/-- The fields `u[7]`, `u[6:4]` and `u[3:0]` of the complemented byte, as numbers. -/
theorem complement_fields : ∀ b : Byte,
    (~~~b).getLsbD 7 = decide (b.toNat < 128) ∧
    ((~~~b).extractLsb' 4 3).toNat = (255 - b.toNat) % 128 / 16 ∧
    ((~~~b).extractLsb' 0 4).toNat = (255 - b.toNat) % 128 % 16 := by decide

theorem toInt_g711 (b : Byte) : (g711 b).toInt =
    if b.toNat < 128 then -(ulawMagnitude ((255 - b.toNat) % 128) : Int) else ulawMagnitude ((255 - b.toNat) % 128) := by
  obtain ⟨hSign, hExponent, hMantissa⟩ := complement_fields b
  have hMagnitude := ulawMagnitude_le (Nat.mod_lt (255 - b.toNat) (show 128 > 0 by decide))
  have hCast := cast_ulawMagnitude ((255 - b.toNat) % 128)
  simp only [g711, hSign, hExponent, hMantissa, decide_eq_true_eq, ← hCast]
  exact BitVec.toInt_ofInt_eq_self (by decide) (by split <;> omega) (by split <;> omega)

theorem toNat_flipSign : ∀ b : Byte, (b ^^^ 0x80#8).toNat = if b.toNat < 128 then b.toNat + 128 else b.toNat - 128 := by
  decide

/-- Flipping the sign bit keeps the seven bits of the magnitude. -/
theorem toInt_g711_flipSign (b : Byte) : (g711 (b ^^^ 0x80#8)).toInt = -(g711 b).toInt := by
  have hByte := b.isLt
  rw [toInt_g711, toInt_g711, toNat_flipSign]
  by_cases hSign : b.toNat < 128
  · have hBits : (255 - (b.toNat + 128)) % 128 = (255 - b.toNat) % 128 := by omega
    rw [if_pos hSign, if_pos hSign, if_neg (by omega), hBits, neg_neg]
  · have hBits : (255 - (b.toNat - 128)) % 128 = (255 - b.toNat) % 128 := by omega
    rw [if_neg hSign, if_neg hSign, if_pos (by omega), hBits]

/-- Among the bytes with the sign bit set, the byte below has the next complement, hence the next magnitude. -/
theorem toInt_g711_lt_pred {b : Byte} (h : 0x80#8 < b) : (g711 b).toInt < (g711 (b - 1#8)).toInt := by
  have hAbove : 128 < b.toNat := h
  have hByte := b.isLt
  have hPred : (b - 1#8).toNat = b.toNat - 1 := by bv_omega
  have hBits : (255 - (b.toNat - 1)) % 128 = (255 - b.toNat) % 128 + 1 := by omega
  rw [toInt_g711, toInt_g711, hPred, if_neg (by omega), if_neg (by omega), hBits]
  exact_mod_cast ulawMagnitude_lt_succ _

/-- Settles O50: the two fixed entries are the magnitudes of the codes 127 and 0; the rest is how sign and magnitude make an entry. -/
theorem defaultUlawTable : Obligations.DefaultUlawTable :=
  ⟨toInt_g711 0x00#8, toInt_g711 0xFF#8, toInt_g711_flipSign, fun _ => toInt_g711_lt_pred⟩

/-! ### Interpolation (R178)

The weights `2048 - f` and `f` are not negative and their sum is 2048, so a bound of both samples is a bound of the result. -/

section
variable (s1 s2 : Sample) (p : Word)

theorem interp_eq_weighted : interp s1 s2 p =
    (s1.toInt * (2048 - ((p.toNat % 2048 : Nat) : Int)) + s2.toInt * ((p.toNat % 2048 : Nat) : Int)) / 2048 := rfl

/-- The rule's second form: the multiple of 2048 leaves the floor. -/
theorem interp_eq_add : interp s1 s2 p =
    s1.toInt + ((s2.toInt - s1.toInt) * ((p.toNat % 2048 : Nat) : Int)) / 2048 := by
  rw [interp_eq_weighted, add_comm s1.toInt, ← Int.add_mul_ediv_left _ _ (by decide : (2048 : Int) ≠ 0)]
  congr 1
  ring

variable {s1 s2}

theorem le_interp {lo : Int} (h1 : lo ≤ s1.toInt) (h2 : lo ≤ s2.toInt) : lo ≤ interp s1 s2 p := by
  have hFraction : p.toNat % 2048 < 2048 := Nat.mod_lt _ (by decide)
  rw [interp_eq_weighted, Int.le_ediv_iff_mul_le (by decide)]
  generalize p.toNat % 2048 = f at hFraction
  calc lo * 2048 = lo * (2048 - (f : Int)) + lo * (f : Int) := by ring
    _ ≤ _ := by gcongr; omega

theorem interp_le {hi : Int} (h1 : s1.toInt ≤ hi) (h2 : s2.toInt ≤ hi) : interp s1 s2 p ≤ hi := by
  have hFraction : p.toNat % 2048 < 2048 := Nat.mod_lt _ (by decide)
  rw [interp_eq_weighted]
  refine Int.ediv_le_of_le_mul (by decide) ?_
  generalize p.toNat % 2048 = f at hFraction
  calc _ ≤ hi * (2048 - (f : Int)) + hi * (f : Int) := by gcongr; omega
    _ = hi * 2048 := by ring

end

/-- Settles O51: the smaller and the larger sample are bounds of both, and at a zero fraction nothing is added to the first. -/
theorem interpolationIsBetween : Obligations.InterpolationIsBetween := by
  intro s1 s2 p
  refine ⟨le_interp p (min_le_left _ _) (min_le_right _ _), interp_le p (le_max_left _ _) (le_max_right _ _),
    interp_eq_add s1 s2 p, fun hZero => ?_⟩
  rw [interp_eq_add, hZero, Nat.cast_zero, mul_zero, Int.zero_ediv, add_zero]

end Sys2Proof.Machine
end

section
/-! PROOFS. The family of spec/43_filter.md: the two forms of a pole (R193, R194, R196), the four poles by `LP` (R195), and the range of
the all-low-pass modes (R199, R200). -/

namespace Sys2Proof.Machine

/-! ### The low-pass form (R193, R196) -/

section
variable (c x z : Int)

theorem lowPass_eq : lowPass c x z = c * (x - z) / 16384 + z := rfl

/-- The multiple of 16384 enters the floor: the weights of input and tap are `c` and `16384 - c`. -/
theorem lowPass_eq_weighted : lowPass c x z = (c * x + (16384 - c) * z) / 16384 := by
  rw [lowPass_eq, ← Int.add_mul_ediv_left _ _ (by decide : (16384 : Int) ≠ 0)]
  congr 1
  ring

theorem lowPass_zero : lowPass 0 x z = z := by
  rw [lowPass_eq, zero_mul, Int.zero_ediv, zero_add]

theorem lowPass_16384 : lowPass 16384 x z = x := by
  rw [lowPass_eq, Int.mul_ediv_cancel_left _ (by decide), sub_add_cancel]

theorem lowPass_self : lowPass c x x = x := by
  rw [lowPass_eq, sub_self, mul_zero, Int.zero_ediv, zero_add]

theorem lowPass_16383 : lowPass 16383 x z = x + (z - x) / 16384 := by
  rw [lowPass_eq]
  omega

variable {c x z}

/-! With a coefficient up to 16384 neither weight is negative, so a bound of input and tap is a bound of the output. -/

theorem le_lowPass {lo : Int} (h0 : 0 ≤ c) (h1 : c ≤ 16384) (hx : lo ≤ x) (hz : lo ≤ z) : lo ≤ lowPass c x z := by
  have hTap : 0 ≤ 16384 - c := by omega
  rw [lowPass_eq_weighted, Int.le_ediv_iff_mul_le (by decide)]
  calc lo * 16384 = c * lo + (16384 - c) * lo := by ring
    _ ≤ c * x + (16384 - c) * z := by gcongr

theorem lowPass_le {hi : Int} (h0 : 0 ≤ c) (h1 : c ≤ 16384) (hx : x ≤ hi) (hz : z ≤ hi) : lowPass c x z ≤ hi := by
  have hTap : 0 ≤ 16384 - c := by omega
  rw [lowPass_eq_weighted]
  refine Int.ediv_le_of_le_mul (by decide) ?_
  calc c * x + (16384 - c) * z ≤ c * hi + (16384 - c) * hi := by gcongr
    _ = hi * 16384 := by ring

theorem Fits16.lowPass (h0 : 0 ≤ c) (h1 : c ≤ 16384) (hx : Fits16 x) (hz : Fits16 z) : Fits16 (lowPass c x z) :=
  ⟨le_lowPass h0 h1 hx.1 hz.1, lowPass_le h0 h1 hx.2 hz.2⟩

end

/-- Settles O53: the smaller and the larger of input and tap are bounds of both. -/
theorem lowPassCornerCases : Obligations.LowPassCornerCases := fun c x z =>
  ⟨lowPass_zero x z, lowPass_16384 x z, lowPass_self c x,
    fun h0 h1 => ⟨le_lowPass h0 h1 (min_le_left _ _) (min_le_right _ _), lowPass_le h0 h1 (le_max_left _ _) (le_max_right _ _)⟩,
    lowPass_16383 x z⟩

/-! ### The high-pass form (R194, R196) -/

theorem highPass_eq (c x zin zown : Int) : highPass c x zin zown = x - zin + c * zown / 32768 + zown / 2 := rfl

theorem highPass_zero (x zin zown : Int) : highPass 0 x zin zown = x - zin + zown / 2 := by
  rw [highPass_eq, zero_mul, Int.zero_ediv, add_zero]

/-- The two halves of the tap are floored apart, so an odd tap loses 1. -/
theorem highPass_16384 (x zin zown : Int) : highPass 16384 x zin zown = x - zin + zown - zown % 2 := by
  rw [highPass_eq]
  omega

/-- Settles O54: the third clause is the second one with `zin = zown`. -/
theorem highPassCornerCases : Obligations.HighPassCornerCases := fun x zin zown =>
  ⟨highPass_zero x zin zown, highPass_16384 x zin zown, by rw [highPass_16384, sub_add_cancel]⟩

/-! ### The effective coefficients (R191) -/

theorem coefficient_eq (k : KShift) (h : Half) : coefficient k h = h.toNat / 2 ^ kShiftBits k :=
  by simp [coefficient]

theorem coefficient_nonneg (k : KShift) (h : Half) : 0 ≤ coefficient k h := Int.natCast_nonneg _

/-- With `K_SHIFT = 2` no coefficient reaches the transparent 16384. -/
theorem coefficient_two_lt (h : Half) : coefficient .two h < 16384 := by
  have hHalf := h.isLt
  have hShift : coefficient .two h = ((h.toNat / 4 : Nat) : Int) := rfl
  omega

/-! ### The four poles by the value of `LP` (R192, R195, R198) -/

theorem lp_cases : ∀ b : BitVec 2, b = 0#2 ∨ b = 1#2 ∨ b = 2#2 ∨ b = 3#2 := by decide

section
variable (k : KShift) (v : Voice) (x : Int)

theorem Voice.poles_y1 : (v.poles k x).y1 = lowPass (coefficient k v.k1) x v.o1.toInt := rfl

theorem Voice.poles_y2 : (v.poles k x).y2 = lowPass (coefficient k v.k1) (v.poles k x).y1 v.o2.toInt := rfl

variable {v}

theorem Voice.poles_of_lp_zero (h : v.lp = 0#2) :
    (v.poles k x).y3 = highPass (coefficient k v.k2) (v.poles k x).y2 v.o2.toInt v.o3.toInt ∧
    (v.poles k x).y4 = highPass (coefficient k v.k2) (v.poles k x).y3 v.o3.toInt v.o4.toInt := by
  simp [Voice.poles, Voice.poleMode, h]

theorem Voice.poles_of_lp_one (h : v.lp = 1#2) :
    (v.poles k x).y3 = lowPass (coefficient k v.k1) (v.poles k x).y2 v.o3.toInt ∧
    (v.poles k x).y4 = highPass (coefficient k v.k2) (v.poles k x).y3 v.o3.toInt v.o4.toInt := by
  simp [Voice.poles, Voice.poleMode, h]

theorem Voice.poles_of_lp_two (h : v.lp = 2#2) :
    (v.poles k x).y3 = lowPass (coefficient k v.k2) (v.poles k x).y2 v.o3.toInt ∧
    (v.poles k x).y4 = lowPass (coefficient k v.k2) (v.poles k x).y3 v.o4.toInt := by
  simp [Voice.poles, Voice.poleMode, h]

theorem Voice.poles_of_lp_three (h : v.lp = 3#2) :
    (v.poles k x).y3 = lowPass (coefficient k v.k1) (v.poles k x).y2 v.o3.toInt ∧
    (v.poles k x).y4 = lowPass (coefficient k v.k2) (v.poles k x).y3 v.o4.toInt := by
  simp [Voice.poles, Voice.poleMode, h]

end

/-! ### What the filter writes (R197, R199) -/

theorem fitsTap_iff (y : Int) : fitsTap y = true ↔ -2 ^ 31 ≤ y ∧ y < 2 ^ 31 := by
  rw [fitsTap, decide_eq_true_iff, Int.le_sub_one_iff]

theorem Poles.fit_iff (y : Poles) : y.fit = true ↔ ∀ z ∈ [y.y1, y.y2, y.y3, y.y4], -2 ^ 31 ≤ z ∧ z < 2 ^ 31 := by
  simp only [← fitsTap_iff]
  simp [Poles.fit, and_assoc]

/-- Outputs that fit become the taps, and the last one the sample; nothing is drawn. -/
theorem Voice.filtered_of_fit {k : KShift} {v : Voice} {x : Int} (h : (v.poles k x).fit = true) (d : Nat) :
    v.filtered k x d =
      ⟨(v.poles k x).y4, v.setTaps (BitVec.ofInt 32 (v.poles k x).y1) (BitVec.ofInt 32 (v.poles k x).y2)
        (BitVec.ofInt 32 (v.poles k x).y3) (BitVec.ofInt 32 (v.poles k x).y4), d⟩ :=
  if_pos h

/-- Settles O52: in each of the four modes the named outputs are those of the poles. -/
theorem filterPolesByMode : Obligations.FilterPolesByMode := by
  intro k v x y1 y2 y3 y4 c1 c2 d hC1 hC2 hY1 hY2 hMode0 hMode1 hMode2 hMode3 hFits
  rw [← coefficient_eq] at hC1 hC2
  subst hC1 hC2
  have e1 : (v.poles k x).y1 = y1 := hY1.symm
  have e2 : (v.poles k x).y2 = y2 := by rw [Voice.poles_y2, e1, hY2, lowPass_eq]
  have e34 : (v.poles k x).y3 = y3 ∧ (v.poles k x).y4 = y4 := by
    rcases lp_cases v.lp with h | h | h | h
    · simp only [Voice.poles_of_lp_zero k x h, e2, hMode0 h, highPass_eq, and_self]
    · simp only [Voice.poles_of_lp_one k x h, e2, hMode1 h, lowPass_eq, highPass_eq, and_self]
    · simp only [Voice.poles_of_lp_two k x h, e2, hMode2 h, lowPass_eq, and_self]
    · simp only [Voice.poles_of_lp_three k x h, e2, hMode3 h, lowPass_eq, and_self]
  obtain ⟨e3, e4⟩ := e34
  have hFit : (v.poles k x).fit = true := by rwa [Poles.fit_iff, e1, e2, e3, e4]
  rw [Voice.filtered_of_fit hFit, e1, e2, e3, e4]
  exact ⟨rfl, rfl, rfl⟩

/-! ### Modes 2 and 3: four low-pass poles (R195, R199, R200) -/

/-- The two modes differ only in the coefficient of pole 3. -/
theorem Voice.AllLowPass.poles_y3_y4 {v : Voice} (h : v.AllLowPass) (k : KShift) (x : Int) :
    ∃ r ∈ [v.k1, v.k2], (v.poles k x).y3 = lowPass (coefficient k r) (v.poles k x).y2 v.o3.toInt ∧
      (v.poles k x).y4 = lowPass (coefficient k v.k2) (v.poles k x).y3 v.o4.toInt := by
  rcases h with h | h
  · exact ⟨v.k2, by simp, Voice.poles_of_lp_two k x h⟩
  · exact ⟨v.k1, by simp, Voice.poles_of_lp_three k x h⟩

/-- With four low-pass poles, what each of them makes of its input and its tap goes down the cascade. -/
theorem Voice.AllLowPass.cascade {k : KShift} {v : Voice} {x : Int} {P Q : Int → Prop} (h : v.AllLowPass)
    (hPole : ∀ r ∈ [v.k1, v.k2], ∀ y z, P y → Q z → P (lowPass (coefficient k r) y z)) (hx : P x)
    (hTaps : Q v.o1.toInt ∧ Q v.o2.toInt ∧ Q v.o3.toInt ∧ Q v.o4.toInt) :
    P (v.poles k x).y1 ∧ P (v.poles k x).y2 ∧ P (v.poles k x).y3 ∧ P (v.poles k x).y4 := by
  obtain ⟨q1, q2, q3, q4⟩ := hTaps
  obtain ⟨r, hr, e3, e4⟩ := h.poles_y3_y4 k x
  have p1 : P (v.poles k x).y1 := hPole v.k1 (by simp) _ _ hx q1
  have p2 : P (v.poles k x).y2 := hPole v.k1 (by simp) _ _ p1 q2
  have p3 : P (v.poles k x).y3 := e3 ▸ hPole r hr _ _ p2 q3
  exact ⟨p1, p2, p3, e4 ▸ hPole v.k2 (by simp) _ _ p3 q4⟩

theorem Fits16.fitsTap {y : Int} (h : Fits16 y) : fitsTap y = true := by
  obtain ⟨hLow, hHigh⟩ := h
  rw [fitsTap_iff]
  omega

/-- A tap reads back a value within 16 bits. -/
theorem Fits16.tap {y : Int} (h : Fits16 y) : Fits16 (BitVec.ofInt 32 y).toInt := by
  obtain ⟨hLow, hHigh⟩ := (fitsTap_iff y).1 h.fitsTap
  rwa [BitVec.toInt_ofInt_eq_self (by decide) hLow hHigh]

theorem Poles.fit_of_fits16 {y : Poles} (h1 : Fits16 y.y1) (h2 : Fits16 y.y2) (h3 : Fits16 y.y3) (h4 : Fits16 y.y4) :
    y.fit = true := by
  simp [Poles.fit, h1.fitsTap, h2.fitsTap, h3.fitsTap, h4.fitsTap]

/-- Settles O55: 16 bits are a bound that goes down the cascade, since no coefficient exceeds 16384. -/
theorem lowPassModesStaySmall : Obligations.LowPassModesStaySmall := by
  intro v x d hMode hTaps hx
  obtain ⟨f1, f2, f3, f4⟩ := hMode.cascade (k := .two)
    (fun r _ _ _ => Fits16.lowPass (coefficient_nonneg .two r) (coefficient_two_lt r).le) hx hTaps
  rw [Voice.filtered_of_fit (Poles.fit_of_fits16 f1 f2 f3 f4)]
  exact ⟨f4, ⟨f1.tap, f2.tap, f3.tap, f4.tap⟩, rfl⟩

theorem coefficient_none_0x4000 : coefficient .none 0x4000#16 = 16384 := rfl

/-- Settles O56: each pole passes its input on, whatever its tap holds. -/
theorem transparentFilter : Obligations.TransparentFilter := by
  intro v x d hMode hK1 hK2 hx
  have hPole : ∀ r ∈ [v.k1, v.k2], ∀ y z, y = x → True → lowPass (coefficient .none r) y z = x := by
    simp [hK1, hK2, coefficient_none_0x4000, lowPass_16384]
  obtain ⟨e1, e2, e3, e4⟩ := hMode.cascade hPole rfl ⟨trivial, trivial, trivial, trivial⟩
  have hFit : (v.poles .none x).fit = true :=
    Poles.fit_of_fits16 (by rwa [e1]) (by rwa [e2]) (by rwa [e3]) (by rwa [e4])
  rw [Voice.filtered_of_fit hFit, e1, e2, e3, e4]
  exact ⟨rfl, rfl, rfl⟩

end Sys2Proof.Machine
end

section
/-! PROOFS. The family of spec/44_mixer_frame.md: the volume law (R213 to R215), the service of a running voice (R212), a FRAME as the sum
of its voices (R210, R216, R217, R220) and its bound, when a FRAME completes (R150), a render pass (R218) and the native rate (R219). -/

namespace Sys2Proof.Machine

/-! ### The volume law (R214, R215) -/

/-- The multiplier that the default law makes of a volume. -/
def volumeGain (vol : Half) : Int := ((vol.toNat + vol.toNat / 2 ^ 15 : Nat) : Int)

theorem volumeGain_mono {vol vol' : Half} (h : vol.toNat ≤ vol'.toNat) : volumeGain vol ≤ volumeGain vol' := by
  unfold volumeGain
  omega

theorem volScale_linear16 (x : Int) (vol : Half) : volScale .linear16 x vol = x * volumeGain vol / 65536 := rfl

section
variable {x : Int} {vol vol' : Half}

theorem volScale_linear16_mono (hx : 0 ≤ x) (h : vol.toNat ≤ vol'.toNat) :
    volScale .linear16 x vol ≤ volScale .linear16 x vol' :=
  Int.ediv_le_ediv (by decide) (mul_le_mul_of_nonneg_left (volumeGain_mono h) hx)

theorem volScale_linear16_anti (hx : x ≤ 0) (h : vol.toNat ≤ vol'.toNat) :
    volScale .linear16 x vol' ≤ volScale .linear16 x vol :=
  Int.ediv_le_ediv (by decide) (mul_le_mul_of_nonpos_left (volumeGain_mono h) hx)

end

/-- Settles O33: each law is so at the two ends of the volume, and at a sample 0. -/
theorem everyVolumeLaw : Obligations.EveryVolumeLaw := by
  intro law x vol
  cases law with
  | linear16 =>
    have hFull : volumeGain 0xFFFF#16 = 65536 := rfl
    have hMute : volumeGain 0#16 = 0 := rfl
    simp [volScale_linear16, hFull, hMute]
  | other =>
    refine ⟨by simp [volScale], by simp [volScale], ?_⟩
    by_cases hFull : vol = 0xFFFF#16 <;> simp [volScale, hFull]

/-- Settles O31: below 32768 the gain is the volume. -/
theorem defaultVolumeLaw : Obligations.DefaultVolumeLaw := by
  intro x vol
  obtain ⟨hFull, hMute, -⟩ := everyVolumeLaw .linear16 x vol
  refine ⟨?_, hFull, hMute, fun hBelow => ?_⟩
  · rw [volScale_linear16, volumeGain]
    push_cast
    rfl
  · have hGain : volumeGain vol = vol.toNat := by
      unfold volumeGain
      omega
    rw [volScale_linear16, hGain]

/-- Settles O32: every volume is between 0, which gives 0, and 65535, which gives the sample. -/
theorem defaultVolumeNeverAmplifies : Obligations.DefaultVolumeNeverAmplifies := by
  intro x vol vol'
  obtain ⟨hFull, hMute, -⟩ := everyVolumeLaw .linear16 x vol
  have hLow : (0#16).toNat ≤ vol.toNat := Nat.zero_le _
  have hHigh : vol.toNat ≤ (0xFFFF#16).toNat := Nat.le_of_lt_succ vol.isLt
  refine ⟨fun hx => ?_, fun hx => ?_, volScale_linear16_mono, volScale_linear16_anti⟩
  · exact ⟨hMute.symm.trans_le (volScale_linear16_mono hx hLow), (volScale_linear16_mono hx hHigh).trans_eq hFull⟩
  · exact ⟨hFull.symm.trans_le (volScale_linear16_anti hx hHigh), (volScale_linear16_anti hx hLow).trans_eq hMute⟩

/-! ### A running voice (R171, R180, R212, R213) -/

/-- A mapped region is always fetched from (R170). -/
theorem fetch_of_region {p : Params} {mem : Memory} {v : Voice} {r : Region} (h : Memory.region mem v.bs = some r)
    (pos : Word) (d : Nat) : ∃ f, fetch p mem v pos d = some f := by
  rw [fetch, h]
  exact ⟨_, rfl⟩

/-- Linear interpolation is the only one (R179). -/
theorem interpolate_eq (mode : InterpMode) : interpolate mode = interp := by
  cases mode
  rfl

/-- `Advance` writes no tap. -/
theorem Voice.advance_taps {m : Word} {v w : Voice} (h : v.advance m = some w) :
    w.o1 = v.o1 ∧ w.o2 = v.o2 ∧ w.o3 = v.o3 ∧ w.o4 = v.o4 :=
  ⟨Voice.advance_o1 h, Voice.advance_o2 h, Voice.advance_o3 h, Voice.advance_o4 h⟩

/-- Settles O27: the degenerate check passes, and the sound of the voice is the filtered sample or silence. -/
theorem runningVoiceSoundsThenAdvances : Obligations.RunningVoiceSoundsThenAdvances := by
  intro p mem v d hRunning hNe
  have hCheck := Voice.degenerateCheck_of_ne hNe
  have hService := Voice.service_running (p := p) (mem := mem) (d := d) (hCheck.symm ▸ hRunning)
  rw [hCheck] at hService
  constructor
  · intro r hRegion
    obtain ⟨f, hFetch⟩ := fetch_of_region (p := p) hRegion v.accumulator d
    rw [Voice.sound_fetched hFetch, interpolate_eq] at hService
    exact ⟨f, _, hFetch, rfl, hService, fun w => Voice.advance_taps⟩
  · intro hUnmapped
    rw [Voice.sound_unmapped p mem v d hUnmapped] at hService
    exact ⟨hService, fun w => Voice.advance_taps⟩

/-! ### The voices a FRAME services (R33, R210, R220) -/

theorem Chip.services_iff {c : Chip} {i : VoiceIx} : c.Services i ↔ i.toNat < c.servicedCount :=
  Nat.lt_succ_iff.symm

/-- Settles O24: neither the service of the voices nor the scan reaches a voice at or above their limit. -/
theorem frameLeavesUnservicedVoices : Obligations.FrameLeavesUnservicedVoices := by
  intro s t h
  have hn := Chip.servicedCount_le s.chip
  obtain ⟨x, hx, rfl⟩ := execFrame_next h
  obtain ⟨⟨hActive, hPage, hMode, -⟩, hAbove, -⟩ := Mix.serviceBelow_spec hn hx
  rw [State.finishFrame_chip, Chip.scanBelow_activeVoices _ _ hn, Chip.scanBelow_currentPage _ _ hn,
    Chip.scanBelow_mode _ _ hn]
  refine ⟨fun i hi => ?_, hActive, hPage, hMode⟩
  rw [Chip.services_iff] at hi
  rcases Chip.voice_scanBelow x.chip _ hn i with e | ⟨-, hBelow, -⟩
  · exact e.trans (hAbove i (Nat.le_of_not_lt hi))
  · exact absurd hBelow hi

/-- A voice without meaning leaves the scan it is in without a result (R150). -/
theorem Mix.serviceBelow_of_noMeaning {p : Params} {mem : Memory} {x : Mix} {n : Nat} (hn : n ≤ 32) {i : VoiceIx}
    (hi : i.toNat < n) (h : (x.chip.voice i).NoMeaning (posMask p)) : Mix.serviceBelow p mem n x = none := by
  rw [Option.eq_none_iff_forall_ne_some]
  intro y hy
  obtain ⟨-, -, hBelow⟩ := Mix.serviceBelow_spec hn hy
  obtain ⟨d, r, hr, -⟩ := hBelow i hi
  rw [(Voice.service_total p mem (x.chip.voice i) d).2 h] at hr
  cases hr

theorem execFrame_of_unserviced {s : State}
    (h : Mix.serviceBelow s.params s.memory s.chip.servicedCount s.startMix = none) :
    execFrame s = .refused .bowTieChain := by
  unfold execFrame
  rw [h]

/-- Settles O22, by whether every voice of the FRAME can be serviced. -/
theorem frameCompletesUnlessNoMeaning : Obligations.FrameCompletesUnlessNoMeaning := by
  intro s
  have hn := Chip.servicedCount_le s.chip
  constructor
  · intro hMeaning
    obtain ⟨x, hx⟩ := Mix.serviceBelow_total (mem := s.memory) s.startMix s.chip.servicedCount hn
      fun i hi => hMeaning i (Chip.services_iff.2 hi)
    exact ⟨_, x.left, x.right, execFrame_of_serviced hx, rfl⟩
  · rintro ⟨i, hServices, hNoMeaning⟩
    exact execFrame_of_unserviced (Mix.serviceBelow_of_noMeaning hn (Chip.services_iff.1 hServices) hNoMeaning)

/-! ### A FRAME is the sum of its voices (R210, R212, R216, R217)

A voice is serviced as it stood at the start of the FRAME; the only thing that the voices below it hand on is the count of draws. -/

section
variable (p : Params) (mem : Memory) (x : Mix)

/-- The service of voice `k` as it stands in `x`, from `d` draws; where it has no result, silence. -/
def Mix.serviceOf (k d : Nat) : Serviced :=
  ((x.chip.voice (BitVec.ofNat 5 k)).service p mem d).getD ⟨x.chip.voice (BitVec.ofNat 5 k), 0, 0, d⟩

/-- The count of draws when the voices below `k` have been serviced. -/
def Mix.drawsBefore : Nat → Nat
  | 0 => x.draws
  | k + 1 => (x.serviceOf p mem k (Mix.drawsBefore k)).draws

/-- The service of voice `k` after those below it. -/
def Mix.servicedVoice (k : Nat) : Serviced := x.serviceOf p mem k (x.drawsBefore p mem k)

/-- `y` is `x` with the contributions of the voices below `n` added, and these voices as their services leave them. -/
structure Mix.SumBelow (n : Nat) (y : Mix) : Prop where
  draws : y.draws = x.drawsBefore p mem n
  left : y.left = x.left + ∑ k ∈ Finset.range n, (x.servicedVoice p mem k).left
  right : y.right = x.right + ∑ k ∈ Finset.range n, (x.servicedVoice p mem k).right
  voice : ∀ i : VoiceIx, i.toNat < n →
    (x.chip.voice i).service p mem (x.drawsBefore p mem i.toNat) = some (x.servicedVoice p mem i.toNat) ∧
      y.chip.voice i = (x.servicedVoice p mem i.toNat).voice

variable {p mem x}

theorem Mix.sumBelow_zero : x.SumBelow p mem 0 x :=
  ⟨rfl, (add_zero _).symm, (add_zero _).symm, fun i hi => absurd hi (Nat.not_lt_zero i.toNat)⟩

/-- Voice `n` is the next one to be serviced. -/
theorem Mix.SumBelow.succ {n : Nat} {y : Mix} (h : x.SumBelow p mem n y) (hn : n < 32) {r : Serviced}
    (hr : (x.chip.voice (BitVec.ofNat 5 n)).service p mem y.draws = some r) :
    x.SumBelow p mem (n + 1) ⟨y.chip.setVoice (BitVec.ofNat 5 n) r.voice, y.left + r.left, y.right + r.right, r.draws⟩ := by
  rw [h.draws] at hr
  have hServiced : x.servicedVoice p mem n = r := by rw [Mix.servicedVoice, Mix.serviceOf, hr, Option.getD_some]
  refine ⟨congrArg Serviced.draws hServiced.symm, ?_, ?_, fun i hi => ?_⟩
  · rw [Finset.sum_range_succ, hServiced, ← add_assoc, ← h.left]
  · rw [Finset.sum_range_succ, hServiced, ← add_assoc, ← h.right]
  · by_cases hLast : i.toNat = n
    · have hIndex : i = BitVec.ofNat 5 n := BitVec.eq_of_toNat_eq (hLast.trans (ofNat5_toNat hn).symm)
      rw [hLast, hServiced, hIndex, Chip.voice_setVoice_same]
      exact ⟨hr, rfl⟩
    · rw [Chip.voice_setVoice_of_ne _ _ (ofNat5_ne hn (Ne.symm hLast))]
      exact h.voice i (by omega)

theorem Mix.serviceBelow_sumBelow {n : Nat} (hn : n ≤ 32) {y : Mix} (h : Mix.serviceBelow p mem n x = some y) :
    x.SumBelow p mem n y := by
  induction n generalizing y with
  | zero =>
    cases h
    exact Mix.sumBelow_zero
  | succ n ih =>
    obtain ⟨z, hz, hService⟩ := Mix.serviceBelow_succ.1 h
    obtain ⟨r, hr, rfl⟩ := Mix.service_eq_some.1 hService
    obtain ⟨-, hAbove, -⟩ := Mix.serviceBelow_spec (Nat.le_of_succ_le hn) hz
    rw [hAbove _ (ofNat5_toNat hn).ge] at hr
    exact (ih (Nat.le_of_succ_le hn) hz).succ hn hr

end

/-- The sums of a completed FRAME, which begin at 0 (R210). -/
theorem State.sumBelow_servicedCount {s : State} {x : Mix}
    (h : Mix.serviceBelow s.params s.memory s.chip.servicedCount s.startMix = some x) :
    s.startMix.SumBelow s.params s.memory s.chip.servicedCount x :=
  Mix.serviceBelow_sumBelow (Chip.servicedCount_le s.chip) h

/-- Settles O23: the services of the voices in order, and the block before the scan. -/
theorem frameIsTheSumOfItsVoices : Obligations.FrameIsTheSumOfItsVoices := by
  intro s t h
  obtain ⟨x, hx, rfl⟩ := execFrame_next h
  obtain ⟨hGlobals, hAbove, -⟩ := Mix.serviceBelow_spec (Chip.servicedCount_le s.chip) hx
  obtain ⟨hDraws, hLeft, hRight, hVoice⟩ := State.sumBelow_servicedCount hx
  rw [State.startMix_left, zero_add] at hLeft
  rw [State.startMix_right, zero_add] at hRight
  refine ⟨s.startMix.servicedVoice s.params s.memory, s.startMix.drawsBefore s.params s.memory, x.chip, rfl, hDraws,
    fun i hi => ?_, fun i hi => ?_, hGlobals, rfl, ?_, ⟨rfl, rfl, rfl⟩⟩
  · obtain ⟨hService, hAfter⟩ := hVoice i (Chip.services_iff.1 hi)
    exact ⟨hService, rfl, hAfter⟩
  · exact hAbove i (Nat.le_of_not_lt (mt Chip.services_iff.2 hi))
  · rw [State.finishFrame_output, hLeft, hRight, Chip.servicedCount]

/-! ### The bound of a FRAME's sums (R199, R216) -/

theorem fits16_sample (x : Sample) : Fits16 x.toInt :=
  ⟨BitVec.le_toInt x, Int.le_sub_one_of_lt (BitVec.toInt_lt (x := x))⟩

theorem Fits16.interp (s1 s2 : Sample) (p : Word) : Fits16 (interp s1 s2 p) :=
  ⟨le_interp p (fits16_sample s1).1 (fits16_sample s2).1, interp_le p (fits16_sample s1).2 (fits16_sample s2).2⟩

/-- A law that does not amplify keeps a range that contains 0. -/
theorem Fits16.volScale {x : Int} (h : Fits16 x) (vol : Half) : Fits16 (volScale .linear16 x vol) := by
  obtain ⟨hLow, hHigh⟩ := h
  obtain ⟨hUp, hDown, -⟩ := defaultVolumeNeverAmplifies x vol vol
  unfold Fits16
  rcases le_total 0 x with hx | hx
  · have := hUp hx
    omega
  · have := hDown hx
    omega

theorem Voice.SmallTaps.degenerateCheck {v : Voice} (h : v.SmallTaps) : v.degenerateCheck.SmallTaps := by
  unfold Voice.degenerateCheck
  split <;> exact h

theorem Voice.SmallTaps.advance {m : Word} {v w : Voice} (h : v.SmallTaps) (hw : v.advance m = some w) : w.SmallTaps := by
  obtain ⟨e1, e2, e3, e4⟩ := Voice.advance_taps hw
  unfold Voice.SmallTaps
  rw [e1, e2, e3, e4]
  exact h

/-- What a service leaves is within 16 bits: the two contributions and the taps. -/
structure Serviced.Small (r : Serviced) : Prop where
  left : Fits16 r.left
  right : Fits16 r.right
  taps : r.voice.SmallTaps

theorem Fits16.zero : Fits16 0 := by
  unfold Fits16
  decide

section
variable {p : Params} (hShift : p.kShift = .two) (hLaw : p.volLaw = .linear16) {mem : Memory} {v : Voice} {d : Nat}
  (hMode : v.AllLowPass) (hTaps : v.SmallTaps)
include hShift hLaw hMode hTaps

theorem Voice.sound_small : (v.sound p mem d).Small := by
  cases hRegion : Memory.region mem v.bs with
  | none =>
    rw [Voice.sound_unmapped p mem v d hRegion]
    exact ⟨.zero, .zero, hTaps⟩
  | some r =>
    obtain ⟨f, hFetch⟩ := fetch_of_region (p := p) hRegion v.accumulator d
    obtain ⟨hSample, hNewTaps, -⟩ :=
      lowPassModesStaySmall v _ f.draws hMode hTaps (.interp f.s1 f.s2 v.accumulator)
    rw [Voice.sound_fetched hFetch, interpolate_eq, hShift, hLaw]
    exact ⟨hSample.volScale _, hSample.volScale _, hNewTaps⟩

theorem Voice.service_small {r : Serviced} (h : v.service p mem d = some r) : r.Small := by
  rcases Voice.service_cases h with ⟨-, rfl⟩ | ⟨-, -, hAdvance, hLeft, hRight, -⟩
  · exact ⟨.zero, .zero, hTaps.degenerateCheck⟩
  · obtain ⟨hSoundLeft, hSoundRight, hSoundTaps⟩ := Voice.sound_small hShift hLaw (mem := mem) (d := d) hMode hTaps
    exact ⟨hLeft ▸ hSoundLeft, hRight ▸ hSoundRight, hSoundTaps.advance hAdvance⟩

end

/-- At most 32 contributions of at most 2^15 each. -/
theorem abs_sum_le_of_fits16 {f : Nat → Int} {n : Nat} (hn : n ≤ 32) (h : ∀ k < n, Fits16 (f k)) :
    |∑ k ∈ Finset.range n, f k| ≤ 2 ^ 20 := by
  have hTerm : ∀ k ∈ Finset.range n, |f k| ≤ 32768 := fun k hk => by
    obtain ⟨hLow, hHigh⟩ := h k (Finset.mem_range.1 hk)
    exact abs_le.2 ⟨hLow, by omega⟩
  calc |∑ k ∈ Finset.range n, f k| ≤ ∑ k ∈ Finset.range n, |f k| := Finset.abs_sum_le_sum_abs _ _
    _ ≤ (Finset.range n).card • 32768 := Finset.sum_le_card_nsmul _ _ _ hTerm
    _ ≤ 2 ^ 20 := by
      rw [Finset.card_range, nsmul_eq_mul]
      omega

/-- The scan writes no tap (R233). -/
theorem Voice.SmallTaps.scanBelow {c : Chip} {i : VoiceIx} (h : (c.voice i).SmallTaps) {n : Nat} (hn : n ≤ 32) :
    ((c.scanBelow n).voice i).SmallTaps := by
  rcases Chip.voice_scanBelow c n hn i with e | ⟨e, -⟩ <;> rw [e] <;> exact h

/-- Settles O34: every service is small, so the sums of at most 32 of them are bounded, and the scan leaves the taps. -/
theorem frameOutputIsBounded : Obligations.FrameOutputIsBounded := by
  intro s t l r hShift hLaw hVoices h hOutput
  have hn := Chip.servicedCount_le s.chip
  obtain ⟨x, hx, rfl⟩ := execFrame_next h
  obtain ⟨-, hLeft, hRight, hVoice⟩ := State.sumBelow_servicedCount hx
  have hSmall : ∀ i : VoiceIx, i.toNat < s.chip.servicedCount →
      (s.startMix.servicedVoice s.params s.memory i.toNat).Small := fun i hi => by
    obtain ⟨hMode, hTaps⟩ := hVoices i (Chip.services_iff.2 hi)
    exact Voice.service_small hShift hLaw hMode hTaps (hVoice i hi).1
  have hSmallAt : ∀ k < s.chip.servicedCount, (s.startMix.servicedVoice s.params s.memory k).Small := fun k hk => by
    have hIndex : (BitVec.ofNat 5 k).toNat = k := ofNat5_toNat (hk.trans_le hn)
    exact hIndex ▸ hSmall (BitVec.ofNat 5 k) (hIndex.symm ▸ hk)
  rw [State.finishFrame_output] at hOutput
  cases hOutput
  refine ⟨?_, ?_, fun i hi => ?_⟩
  · rw [hLeft, State.startMix_left, zero_add]
    exact abs_sum_le_of_fits16 hn fun k hk => (hSmallAt k hk).left
  · rw [hRight, State.startMix_right, zero_add]
    exact abs_sum_le_of_fits16 hn fun k hk => (hSmallAt k hk).right
  · have hServiced := Chip.services_iff.1 hi
    have hTaps : (x.chip.voice i).SmallTaps := (hVoice i hServiced).2 ▸ (hSmall i hServiced).taps
    exact hTaps.scanBelow hn

/-! ### A render pass (R75, R218) -/

/-- A FRAME neither reads nor writes the events still to come. -/
theorem execFrame_setInput_of_next {s t : State} (h : execFrame s = .next t) (input : List Event) :
    execFrame { s with input := input } = .next { t with input := input } := by
  obtain ⟨x, hx, rfl⟩ := execFrame_next h
  exact execFrame_of_serviced (s := { s with input := input }) hx

section
variable {s t : State} {n : Nat}

theorem State.render_succ_of_next (h : execFrame s = .next t) :
    s.render (n + 1) = (t.render n).map fun r => (r.1, t.output :: r.2) := by
  rw [State.render, h]

theorem State.render_succ_of_refused {e : Refusal} (h : execFrame s = .refused e) : s.render (n + 1) = none := by
  rw [State.render, h]

theorem State.steps_succ_of_next (h : step s = .next t) :
    s.steps (n + 1) = (t.steps n).map fun r => (r.1, t.output :: r.2) := by
  rw [State.steps, h]

theorem State.steps_succ_of_refused {e : Refusal} (h : step s = .refused e) : s.steps (n + 1) = none := by
  rw [State.steps, h]

end

/-- The step that takes the first FRAME of a render pass. -/
theorem step_of_pseudoRender (s : State) (n : Nat) (rest : List Event) :
    step { s with input := pseudoRender (n + 1) ++ rest } = execFrame { s with input := pseudoRender n ++ rest } :=
  step_of_event (e := .frame) rfl

theorem State.steps_of_pseudoRender (n : Nat) (s : State) (rest : List Event) :
    { s with input := pseudoRender n ++ rest }.steps n = (s.render n).map fun r => ({ r.1 with input := rest }, r.2) := by
  induction n generalizing s with
  | zero => rfl
  | succ n ih =>
    have hStep := step_of_pseudoRender s n rest
    rcases execFrame_cases s with ⟨hNone, hRefused⟩ | ⟨x, -, hNext⟩
    · have hStops := execFrame_of_unserviced (s := { s with input := pseudoRender n ++ rest }) hNone
      rw [State.steps_succ_of_refused (hStep.trans hStops), State.render_succ_of_refused hRefused, Option.map_none]
    · have hFrame := execFrame_setInput_of_next hNext (pseudoRender n ++ rest)
      rw [State.steps_succ_of_next (hStep.trans hFrame), State.render_succ_of_next hNext, ih, Option.map_map, Option.map_map]
      rfl

theorem State.render_add (a b : Nat) (s : State) :
    s.render (a + b) = (s.render a).bind fun x => (x.1.render b).map fun y => (y.1, x.2 ++ y.2) := by
  induction a generalizing s with
  | zero =>
    rw [Nat.zero_add]
    exact Option.map_id'.symm
  | succ a ih =>
    rw [Nat.add_right_comm]
    rcases execFrame_cases s with ⟨-, hRefused⟩ | ⟨x, -, hNext⟩
    · rw [State.render_succ_of_refused hRefused, State.render_succ_of_refused hRefused, Option.bind_none]
    · rw [State.render_succ_of_next hNext, State.render_succ_of_next hNext, ih, Option.map_bind, Option.bind_map]
      simp only [Function.comp_def, Option.map_map, List.cons_append]

/-- Settles O29, by induction on the FRAMEs of the pass and on those of its first part. -/
theorem renderSplitsAnywhere : Obligations.RenderSplitsAnywhere :=
  ⟨State.steps_of_pseudoRender, fun _ => rfl, State.render_add⟩

/-! ### The native rate (R219) -/

theorem State.nativeRate_mul (s : State) :
    s.nativeRate * (16 * ((s.chip.activeVoices.toNat : ℚ) + 1)) = s.params.masterClock := by
  have hPeriod : (s.chip.framePeriod : ℚ) = 16 * ((s.chip.activeVoices.toNat : ℚ) + 1) := by
    simp [Chip.framePeriod, Chip.servicedCount]
  have hPositive : 16 * ((s.chip.activeVoices.toNat : ℚ) + 1) ≠ 0 := by positivity
  rw [State.nativeRate, hPeriod, div_mul_cancel₀ _ hPositive]

/-- Settles O30: with 32 voices the period is 512 clocks, with one it is 16. -/
theorem nativeRateOfTheCount : Obligations.NativeRateOfTheCount := by
  refine ⟨fun s => ⟨rfl, s.nativeRate_mul⟩, fun s t hClock h32 h1 => ?_⟩
  have hs := s.nativeRate_mul
  have ht := t.nativeRate_mul
  rw [h32] at hs
  rw [h1] at ht
  norm_num at hs ht
  rw [hClock] at hs
  linarith

end Sys2Proof.Machine
end

section
/-! PROOFS. The family of spec/60_exceptions.md: no event raises anything (R230), the scan and the completions that wait (R233, R234), the
latch and the line over a step (R235, R236), and the audio, which the interrupt machinery does not reach (R239). -/

namespace Sys2Proof.Machine

/-! ### No event raises anything (R230) -/

/-- An issued event is found again from what the decoder makes of it: by its word and the value beside it. -/
theorem Event.ofWord_instr (p : Page) (e : Event) :
    Event.ofWord (eventWord (e.instr p)) ((busValue (e.instr p)).getD 0#32) = some e := by
  obtain ⟨-, hWord, hValue⟩ := e.instr_encodesAs p
  rw [hWord, hValue]
  cases e with
  | wr o x => simp [Event.word, Event.value, Event.ofWord, wrWord]
  | rd o => simp [Event.word, Event.ofWord, rdWord]
  | frame | reset => simp [Event.word, Event.ofWord]

/-- So an event that decodes to `i` is the one that the word of `i` stands for. -/
theorem Event.eq_of_instr_eq {p : Page} {e d : Event} {i : Instr} (h : e.instr p = i)
    (hWord : Event.ofWord (eventWord i) ((busValue i).getD 0#32) = some d) : e = d := by
  rw [← h, Event.ofWord_instr] at hWord
  exact Option.some.inj hWord

theorem Event.eq_frame {p : Page} {e : Event} (h : e.instr p = .frame) : e = .frame := Event.eq_of_instr_eq h (by decide)

theorem Event.eq_reset {p : Page} {e : Event} (h : e.instr p = .reset) : e = .reset := Event.eq_of_instr_eq h (by decide)

/-- Only a read of offset 14 is a read of the vector (R66). -/
theorem Event.eq_rd_irqv {p q : Page} {e : Event} (h : e.instr p = .rdIrqv q) : e = .rd 14#4 :=
  Event.eq_of_instr_eq h (by simp [eventWord, Event.ofWord, rdWord])

/-- Every arm of `exec` but that of `FRAME` has a next state. -/
theorem exec_completes {i : Instr} (h : i ≠ .frame) (s : State) : ∃ t, exec i s = .next t := by
  cases i with
  | frame => exact absurd rfl h
  | _ => exact ⟨_, rfl⟩

/-- Settles O21: a step runs what its event decodes to, which is a FRAME only for a FRAME. -/
theorem noEventRaisesAnything : Obligations.NoEventRaisesAnything := by
  refine ⟨fun s e rest hInput hNotFrame => ?_, fun s rest hInput => ?_⟩
  · rw [step_of_event hInput]
    exact exec_completes (mt Event.eq_frame hNotFrame) _
  · rw [step_of_event hInput]
    rcases execFrame_cases { s with input := rest } with ⟨-, hRefused⟩ | ⟨x, -, hNext⟩
    · exact .inr hRefused
    · exact .inl ⟨_, hNext⟩

/-! ### The scan (R233, R234) -/

/-- A scan that finds no waiting flag changes nothing. -/
theorem Chip.scanBelow_of_none_waits {c : Chip} {n : Nat} (hn : n ≤ 32)
    (h : ∀ i : VoiceIx, i.toNat < n → (c.voice i).irq = false) : c.scanBelow n = c := by
  rcases Chip.scanBelow_cases c n hn with e | ⟨i, hi, -, hIrq, -⟩
  · exact e
  · rw [h i hi] at hIrq
    cases hIrq

/-- A scan that goes on from a latch taken changes nothing more: at most one voice is latched (R234). -/
theorem Chip.scanBelow_of_latched {c : Chip} {i : VoiceIx} {k n : Nat} (h : c.scanBelow k = c.latch i) (hk : k ≤ n) :
    c.scanBelow n = c.latch i := by
  induction n, hk using Nat.le_induction with
  | base => exact h
  | succ n _ ih =>
    rw [Chip.scanBelow, ih]
    rcases Chip.irqScan_cases (c.latch i) (BitVec.ofNat 5 n) with ⟨hIdle, -⟩ | ⟨-, e⟩
    · rw [Chip.idle_latch] at hIdle
      cases hIdle
    · exact e

/-- From Idle the scan latches the lowest voice that waits: those below it leave the block as it is, those above it find the latch
taken. -/
theorem Chip.scanBelow_of_lowest {c : Chip} {i : VoiceIx} {n : Nat} (hIdle : c.idle = true) (hi : i.toNat < n)
    (hIrq : (c.voice i).irq = true) (hLowest : ∀ j : VoiceIx, j.toNat < i.toNat → (c.voice j).irq = false) :
    c.scanBelow n = c.latch i := by
  have hBelow : c.scanBelow i.toNat = c := Chip.scanBelow_of_none_waits (Nat.le_of_lt i.isLt) hLowest
  have hTaken : c.scanBelow (i.toNat + 1) = c.latch i := by
    rw [Chip.scanBelow, hBelow, BitVec.ofNat_toNat, BitVec.setWidth_eq, Chip.irqScan, if_pos hIrq, if_pos hIdle]
  exact Chip.scanBelow_of_latched hTaken hi

theorem Voice.setIrq_false_eq (v : Voice) : v.setIrq false = { v with control := v.control &&& 0xFF7F#16 } := rfl

/-- The vector holds the index of the voice (R36). -/
theorem toNat_setWidth_voiceIx (i : VoiceIx) : (i.setWidth 8 : Byte).toNat = i.toNat :=
  BitVec.toNat_setWidth_of_le (by decide)

/-- Settles O57, by the latch of the lowest voice. -/
theorem scanLatchesTheLowestVoice : Obligations.ScanLatchesTheLowestVoice := by
  intro c n hn
  constructor
  · intro i hIdle hi hIrq hLowest
    rw [Chip.scanBelow_of_lowest hIdle hi hIrq hLowest]
    refine ⟨toNat_setWidth_voiceIx i, c.latch_irqLine i, ?_, fun j hj => ?_, rfl, rfl, rfl⟩
    · rw [Chip.voice_latch, if_pos rfl, Voice.setIrq_false_eq]
    · rw [Chip.voice_latch, if_neg hj]
  · rintro (hBusy | hNone)
    · exact c.scanBelow_busy n hBusy
    · exact Chip.scanBelow_of_none_waits hn hNone

/-! ### A completion that waits (R234) -/

/-- The service of the voices withdraws no flag. -/
theorem Mix.serviceBelow_irq {p : Params} {mem : Memory} {n : Nat} {x y : Mix} (hn : n ≤ 32)
    (h : Mix.serviceBelow p mem n x = some y) {i : VoiceIx} (hIrq : (x.chip.voice i).irq = true) :
    (y.chip.voice i).irq = true := by
  obtain ⟨-, hAbove, hBelow⟩ := Mix.serviceBelow_spec hn h
  rcases Nat.lt_or_ge i.toNat n with hi | hi
  · obtain ⟨d, r, hr, e⟩ := hBelow i hi
    rw [e]
    exact Voice.service_irq hr hIrq
  · rw [hAbove i hi]
    exact hIrq

/-- Settles O58: the flag is set when the scan begins, and the scan clears it only as it latches the voice. -/
theorem completionIsNeverLost : Obligations.CompletionIsNeverLost := by
  intro s t i h hIrq
  have hn := Chip.servicedCount_le s.chip
  obtain ⟨x, hx, rfl⟩ := execFrame_next h
  have hWaits : (x.chip.voice i).irq = true := Mix.serviceBelow_irq hn hx hIrq
  rw [State.voice_eq, State.finishFrame_chip]
  rcases Chip.voice_scanBelow x.chip _ hn i with e | ⟨-, -, -, -, hLatched⟩
  · exact .inl (by rw [e, hWaits])
  · rw [hLatched]
    exact .inr ⟨toNat_setWidth_voiceIx i, x.chip.latch_irqLine i⟩

/-! ### The latch and the line over a step (R235, R236) -/

/-- The vector and the line are the same. -/
def Chip.SameLatch (c d : Chip) : Prop := d.irqVector = c.irqVector ∧ d.irqLine = c.irqLine

/-- A FRAME keeps the latch, or takes it from Idle to Pending. -/
theorem execFrame_latch {s t : State} (h : execFrame s = .next t) :
    s.chip.SameLatch t.chip ∨ (s.chip.idle = true ∧ t.chip.irqLine = true) := by
  have hn := Chip.servicedCount_le s.chip
  obtain ⟨x, hx, rfl⟩ := execFrame_next h
  obtain ⟨⟨-, -, -, hVector, hLine⟩, -⟩ := Mix.serviceBelow_spec hn hx
  have hIdle : x.chip.idle = s.chip.idle := congrArg (BitVec.getLsbD · 7) hVector
  rw [State.finishFrame_chip]
  rcases Chip.scanBelow_cases x.chip _ hn with e | ⟨i, -, hWasIdle, -, e⟩ <;> rw [e]
  · exact .inl ⟨hVector, hLine⟩
  · exact .inr ⟨hIdle ▸ hWasIdle, x.chip.latch_irqLine i⟩

/-- No arm of `exec` but those of `FRAME`, `RESET` and the read of the vector reaches the latch. -/
theorem exec_sameLatch {i : Instr} {s t : State} (h : exec i s = .next t) (hFrame : i ≠ .frame) (hReset : i ≠ .reset)
    (hRead : ∀ p, i ≠ .rdIrqv p) : s.chip.SameLatch t.chip := by
  cases i with
  | frame => exact absurd rfl hFrame
  | reset => exact absurd rfl hReset
  | rdIrqv p => exact absurd rfl (hRead p)
  | _ => cases h; exact ⟨rfl, rfl⟩

/-- What a step does to the latch: an acknowledge or a RESET drops the line, a FRAME may take the latch from Idle, and every other step
keeps it. -/
theorem step_latch {s t : State} {e : Event} {rest : List Event} (hInput : s.input = e :: rest) (h : step s = .next t) :
    ((e = .rd 14#4 ∨ e = .reset) ∧ t.chip.irqLine = false) ∨
      (e = .frame ∧ s.chip.idle = true ∧ t.chip.irqLine = true) ∨ s.chip.SameLatch t.chip := by
  rw [step_of_event hInput] at h
  by_cases hFrame : e = .frame
  · subst hFrame
    exact .inr ((execFrame_latch h).symm.imp_left fun hTaken => ⟨rfl, hTaken⟩)
  by_cases hReset : e = .reset
  · subst hReset
    cases h
    exact .inl ⟨.inr rfl, rfl⟩
  by_cases hRead : e = .rd 14#4
  · subst hRead
    cases h
    exact .inl ⟨.inl rfl, rfl⟩
  exact .inr (.inr (exec_sameLatch (s := { s with input := rest }) h (mt Event.eq_frame hFrame) (mt Event.eq_reset hReset)
    fun _ => mt Event.eq_rd_irqv hRead))

/-- Settles O59, by what a step does to the latch. -/
theorem latchChangesOnlyWhereAllowed : Obligations.LatchChangesOnlyWhereAllowed := by
  intro s t e rest hInput h
  rcases step_latch hInput h with ⟨hEvent, hLow⟩ | ⟨hFrame, hIdle, hHigh⟩ | ⟨hVector, hLine⟩
  · exact ⟨fun _ hRead hReset => absurd hEvent (not_or_intro hRead hReset), by simp [hLow], fun _ _ => hEvent⟩
  · exact ⟨by simp [hIdle], fun _ _ => hFrame, by simp [hHigh]⟩
  · exact ⟨fun _ _ _ => ⟨hVector, hLine⟩, by simp +contextual [hLine], by simp +contextual [hLine]⟩

/-! ### The audio does not read the interrupt machinery (R239)

Every operation of a FRAME on a voice commutes with a write of its `IRQ` flag, up to the flag itself, which `Boundary` may set. So a FRAME
on the block with its interrupts set aside is the FRAME on the block. -/

theorem setBit_comm (c : Half) {j k : Nat} (a b : Bool) (hj : j < 16) (hk : k < 16) (h : j ≠ k) :
    setBit (setBit c j a) k b = setBit (setBit c k b) j a := by
  apply BitVec.eq_of_getLsbD_eq
  intro n _
  simp only [getLsbD_setBit _ _ _ _ hj, getLsbD_setBit _ _ _ _ hk]
  by_cases hn : n = j
  · simp [hn, h]
  · simp [hn]

theorem setBit_setBit (c : Half) {k : Nat} (a b : Bool) (hk : k < 16) : setBit (setBit c k a) k b = setBit c k b := by
  apply BitVec.eq_of_getLsbD_eq
  intro n _
  simp only [getLsbD_setBit _ _ _ _ hk]
  split <;> rfl

section
variable (v : Voice) (b : Bool)

@[simp] theorem Voice.setIrq_setIrq (a : Bool) : (v.setIrq a).setIrq b = v.setIrq b := by
  unfold Voice.setIrq
  rw [setBit_setBit _ _ _ (by decide)]

@[simp] theorem Voice.setStop0_setIrq : (v.setIrq b).setStop0 = v.setStop0.setIrq b := by
  unfold Voice.setStop0 Voice.setIrq
  rw [setBit_comm _ _ _ (by decide) (by decide) (by decide)]

@[simp] theorem Voice.flipDir_setIrq : (v.setIrq b).flipDir = v.flipDir.setIrq b := by
  unfold Voice.flipDir
  rw [Voice.setIrq_dir]
  unfold Voice.setIrq
  rw [setBit_comm _ _ _ (by decide) (by decide) (by decide)]

@[simp] theorem Voice.endTransWave_setIrq : (v.setIrq b).endTransWave = v.endTransWave.setIrq b := by
  have past_irq (c : Half) {k : Nat} (a : Bool) (hk : k < 16) (h : 7 ≠ k) :
      setBit (setBit c 7 b) k a = setBit (setBit c k a) 7 b := setBit_comm c b a (by decide) hk h
  unfold Voice.endTransWave Voice.setIrq
  rw [past_irq _ _ (by decide) (by decide), past_irq _ _ (by decide) (by decide), past_irq _ _ (by decide) (by decide)]

@[simp] theorem Voice.stepPosition_setIrq (m : Word) : (v.setIrq b).stepPosition m = (v.stepPosition m).setIrq b := by
  unfold Voice.stepPosition
  rw [Voice.setIrq_dir]
  split <;> rfl

@[simp] theorem Voice.wrap_setIrq (m : Word) : (v.setIrq b).wrap m = (v.wrap m).setIrq b := by
  unfold Voice.wrap
  rw [Voice.setIrq_dir]
  split <;> rfl

@[simp] theorem Voice.reflect_setIrq (m : Word) : (v.setIrq b).reflect m = (v.reflect m).setIrq b := by
  unfold Voice.reflect
  rw [Voice.setIrq_dir]
  split <;> rw [← Voice.flipDir_setIrq] <;> rfl

/-- A completion that is noted sets the flag, whatever it was (R146). -/
@[simp] theorem Voice.noteCompletion_setIrq : (v.setIrq b).noteCompletion = v.noteCompletion.setIrq (v.irqe || b) := by
  unfold Voice.noteCompletion
  rw [Voice.setIrq_irqe]
  cases v.irqe <;> simp

@[simp] theorem Voice.coefficientRamps_setIrq : (v.setIrq b).coefficientRamps = v.coefficientRamps.setIrq b := by
  unfold Voice.coefficientRamps
  rw [Voice.setIrq_filtcount]
  split <;> rfl

@[simp] theorem Voice.tick_setIrq : (v.setIrq b).tick = v.tick.setIrq b := Voice.coefficientRamps_setIrq v.volumeRamps b

@[simp] theorem Voice.envelope_setIrq : (v.setIrq b).envelope = v.envelope.setIrq b := by
  unfold Voice.envelope
  rw [Voice.setIrq_envelopeCount]
  split
  · rfl
  · dsimp only
    split
    · rw [← Voice.tick_setIrq]
      rfl
    · rfl

@[simp] theorem Voice.degenerateCheck_setIrq : (v.setIrq b).degenerateCheck = v.degenerateCheck.setIrq b := by
  unfold Voice.degenerateCheck
  rw [Voice.setIrq_start, Voice.setIrq_endPos, Voice.setStop0_setIrq]
  split <;> rfl

@[simp] theorem Voice.crossed_setIrq : (v.setIrq b).crossed = v.crossed := by
  unfold Voice.crossed
  rw [Voice.setIrq_dir]
  rfl

@[simp] theorem Voice.chainRounds_setIrq : (v.setIrq b).chainRounds = v.chainRounds := by
  unfold Voice.chainRounds Voice.overshoot
  rw [Voice.setIrq_dir]
  rfl

@[simp] theorem Voice.poles_setIrq (k : KShift) (x : Int) : (v.setIrq b).poles k x = v.poles k x := by
  unfold Voice.poles
  rw [Voice.setIrq_poleMode]
  rfl

@[simp] theorem takeSample_setIrq (p : Params) (mem : Memory) (d : Nat) :
    takeSample p mem (v.setIrq b) d = takeSample p mem v d := by
  unfold takeSample fetch
  rw [Voice.setIrq_bs, Voice.setIrq_cmpd]
  rfl

end

/-- `Boundary` on a voice and on the voice with another flag leave the same but for the flag. -/
theorem Voice.boundary_setIrq (m : Word) (n : Nat) (v : Voice) (b : Bool) :
    ((v.setIrq b).boundary m n).map (·.setIrq false) = (v.boundary m n).map (·.setIrq false) := by
  induction n generalizing v b with
  | zero => rfl
  | succ n ih =>
    simp only [Voice.boundary_succ, Voice.setIrq_lei, Voice.crossed_setIrq, Voice.setIrq_loopMode, Voice.setIrq_start,
      Voice.setIrq_endPos, Voice.noteCompletion_setIrq]
    split
    · simp
    · split
      · cases v.loopMode with
        | oneShot | uni | transWave => simp
        | bowTie =>
          dsimp only
          split
          · rfl
          · rw [Voice.reflect_setIrq, ih]
      · simp

theorem Voice.advance_setIrq (m : Word) (v : Voice) (b : Bool) :
    ((v.setIrq b).advance m).map (·.setIrq false) = (v.advance m).map (·.setIrq false) := by
  have envelope_after : (fun w : Voice => w.envelope.setIrq false) = Voice.envelope ∘ (·.setIrq false) :=
    funext fun w => (w.envelope_setIrq false).symm
  simp only [Voice.advance, Voice.stepPosition_setIrq, Voice.chainRounds_setIrq, Option.map_map, Function.comp_def]
  rw [envelope_after, ← Option.map_map, ← Option.map_map, Voice.boundary_setIrq]

/-- The service of a voice with the flag that it leaves made `b`. -/
def Serviced.setIrq (r : Serviced) (b : Bool) : Serviced := { r with voice := r.voice.setIrq b }

theorem Voice.sound_setIrq (p : Params) (mem : Memory) (v : Voice) (d : Nat) (b : Bool) :
    (v.setIrq b).sound p mem d = (v.sound p mem d).setIrq b := by
  unfold Voice.sound
  rw [takeSample_setIrq]
  cases takeSample p mem v d with
  | none => rfl
  | some x =>
    dsimp only
    unfold Voice.filtered
    rw [Voice.poles_setIrq]
    dsimp only
    split <;> rfl

/-- Two voices that are the same but for the flag make services that are the same but for it. -/
theorem Serviced.map_setIrq_congr {o o' : Option Voice} (h : o.map (·.setIrq false) = o'.map (·.setIrq false))
    (left right : Int) (draws : Nat) :
    (o.map fun w => Serviced.setIrq ⟨w, left, right, draws⟩ false) =
      o'.map fun w => Serviced.setIrq ⟨w, left, right, draws⟩ false := by
  have hMap := congrArg (Option.map fun w => Serviced.mk w left right draws) h
  rwa [Option.map_map, Option.map_map] at hMap

theorem Voice.service_setIrq (p : Params) (mem : Memory) (v : Voice) (d : Nat) (b : Bool) :
    ((v.setIrq b).service p mem d).map (·.setIrq false) = (v.service p mem d).map (·.setIrq false) := by
  unfold Voice.service
  dsimp only
  rw [Voice.degenerateCheck_setIrq, Voice.setIrq_stopped, Voice.sound_setIrq]
  split
  · simp [Serviced.setIrq]
  · rw [Option.map_map, Option.map_map]
    exact Serviced.map_setIrq_congr (Voice.advance_setIrq _ _ b) _ _ _

/-- The block with its interrupts set aside: no flag waits and the latch is Idle. -/
def Chip.noIrq (c : Chip) : Chip :=
  { c with voices := c.voices.map (·.setIrq false), irqVector := idleVector, irqLine := false }

/-- The FRAME's accumulator with the interrupts of its block set aside. -/
def Mix.noIrq (x : Mix) : Mix := { x with chip := x.chip.noIrq }

/-- The machine with the interrupts of its block set aside, and what the audio does not read either: the last output and the events
still to come. -/
def State.noIrq (s : State) : State := { s with chip := s.chip.noIrq, input := [], output := .nothing }

@[simp] theorem Chip.noIrq_noIrq (c : Chip) : c.noIrq.noIrq = c.noIrq := by
  simp [Chip.noIrq, Function.comp_def]

@[simp] theorem Mix.noIrq_noIrq (x : Mix) : x.noIrq.noIrq = x.noIrq := by
  simp [Mix.noIrq]

@[simp] theorem State.noIrq_noIrq (s : State) : s.noIrq.noIrq = s.noIrq := by
  simp [State.noIrq]

@[simp] theorem Chip.voice_noIrq (c : Chip) (i : VoiceIx) : c.noIrq.voice i = (c.voice i).setIrq false := by
  simp [Chip.voice, Chip.noIrq]

theorem Chip.noIrq_eq_iff {c d : Chip} :
    c.noIrq = d.noIrq ↔ (∀ i, (c.voice i).setIrq false = (d.voice i).setIrq false) ∧ c.activeVoices = d.activeVoices ∧
      c.currentPage = d.currentPage ∧ c.mode = d.mode := by
  constructor
  · intro h
    obtain ⟨-, hActive, hPage, hMode, -⟩ := Chip.mk.inj h
    refine ⟨fun i => ?_, hActive, hPage, hMode⟩
    rw [← Chip.voice_noIrq, h, Chip.voice_noIrq]
  · rintro ⟨hVoices, hActive, hPage, hMode⟩
    refine Chip.ext_voice (fun i => ?_) hActive hPage hMode rfl rfl
    rw [Chip.voice_noIrq, Chip.voice_noIrq, hVoices]

theorem State.noIrq_eq_iff {s t : State} : t.noIrq = s.noIrq ↔ s.SameButInterrupts t := by
  have fields : t.noIrq = s.noIrq ↔
      t.chip.noIrq = s.chip.noIrq ∧ t.memory = s.memory ∧ t.params = s.params ∧ t.draws = s.draws := by
    simp [State.noIrq]
  rw [fields, Chip.noIrq_eq_iff]
  simp only [State.SameButInterrupts, State.voice_eq, and_assoc]

/-- What is written over the flag of a voice is set aside. -/
theorem Chip.noIrq_setVoice (c : Chip) (i : VoiceIx) (v : Voice) :
    (c.setVoice i v).noIrq = c.noIrq.setVoice i (v.setIrq false) := by
  refine Chip.ext_voice (fun j => ?_) rfl rfl rfl rfl rfl
  simp only [Chip.voice_noIrq, Chip.voice_setVoice]
  split <;> rfl

/-- The scan writes the interrupt machinery alone (R233). -/
theorem Chip.noIrq_scanBelow (c : Chip) {n : Nat} (hn : n ≤ 32) : (c.scanBelow n).noIrq = c.noIrq := by
  rw [Chip.noIrq_eq_iff, Chip.scanBelow_activeVoices _ _ hn, Chip.scanBelow_currentPage _ _ hn, Chip.scanBelow_mode _ _ hn]
  refine ⟨fun i => ?_, rfl, rfl, rfl⟩
  rcases Chip.voice_scanBelow c n hn i with e | ⟨e, -⟩ <;> rw [e]
  exact Voice.setIrq_setIrq _ _ _

/-- The accumulator with the service `r` of voice `i` added (R212). -/
def Mix.add (x : Mix) (i : VoiceIx) (r : Serviced) : Mix :=
  ⟨x.chip.setVoice i r.voice, x.left + r.left, x.right + r.right, r.draws⟩

theorem Mix.service_eq (p : Params) (mem : Memory) (x : Mix) (i : VoiceIx) :
    x.service p mem i = ((x.chip.voice i).service p mem x.draws).map (x.add i) := rfl

theorem Mix.noIrq_add (x : Mix) (i : VoiceIx) (r : Serviced) : (x.add i r).noIrq = x.noIrq.add i (r.setIrq false) := by
  rw [Mix.noIrq, Mix.add, Chip.noIrq_setVoice]
  rfl

/-- What the service of a voice leaves of the block is fixed by what it leaves of the voice but for the flag. -/
theorem Mix.map_noIrq_service (p : Params) (mem : Memory) (x : Mix) (i : VoiceIx) :
    (x.service p mem i).map Mix.noIrq =
      (((x.chip.voice i).service p mem x.draws).map (·.setIrq false)).map (x.noIrq.add i) := by
  rw [Mix.service_eq, Option.map_map, Option.map_map]
  exact congrArg (Option.map · _) (funext (x.noIrq_add i))

theorem Mix.service_noIrq (p : Params) (mem : Memory) (x : Mix) (i : VoiceIx) :
    (x.noIrq.service p mem i).map Mix.noIrq = (x.service p mem i).map Mix.noIrq := by
  have hVoice : x.noIrq.chip.voice i = (x.chip.voice i).setIrq false := x.chip.voice_noIrq i
  rw [Mix.map_noIrq_service, Mix.map_noIrq_service, Mix.noIrq_noIrq, hVoice, Voice.service_setIrq]
  rfl

theorem Mix.serviceBelow_noIrq (p : Params) (mem : Memory) (n : Nat) (x : Mix) :
    (Mix.serviceBelow p mem n x.noIrq).map Mix.noIrq = (Mix.serviceBelow p mem n x).map Mix.noIrq := by
  have bind_service (o : Option Mix) (i : VoiceIx) : (o.bind fun y => y.service p mem i).map Mix.noIrq =
      (o.map Mix.noIrq).bind fun y => (y.service p mem i).map Mix.noIrq := by
    cases o with
    | none => rfl
    | some y => exact (y.service_noIrq p mem i).symm
  induction n with
  | zero => exact congrArg some x.noIrq_noIrq
  | succ n ih => rw [Mix.serviceBelow, Mix.serviceBelow, bind_service, bind_service, ih]

theorem State.noIrq_finishFrame (s : State) (x : Mix) :
    (s.finishFrame x).noIrq = { s.noIrq with chip := x.chip.noIrq, draws := x.draws } := by
  rw [State.noIrq, State.finishFrame_chip, Chip.noIrq_scanBelow _ (Chip.servicedCount_le s.chip)]
  rfl

/-- A FRAME and the FRAME with the interrupts set aside: both are refused, or both complete, put the same out and leave machines that
differ in the interrupts alone. -/
theorem execFrame_noIrq (s : State) :
    (execFrame s = .refused .bowTieChain ∧ execFrame s.noIrq = .refused .bowTieChain) ∨
      ∃ t u, execFrame s = .next t ∧ execFrame s.noIrq = .next u ∧ u.output = t.output ∧ u.noIrq = t.noIrq := by
  have hServices := Mix.serviceBelow_noIrq s.params s.memory s.chip.servicedCount s.startMix
  rcases execFrame_cases s with ⟨hNone, hRefused⟩ | ⟨x, hx, hNext⟩
  · rw [hNone, Option.map_none, Option.map_eq_none_iff] at hServices
    exact .inl ⟨hRefused, execFrame_of_unserviced (s := s.noIrq) hServices⟩
  · rw [hx, Option.map_some, Option.map_eq_some_iff] at hServices
    obtain ⟨y, hy, hSame⟩ := hServices
    obtain ⟨hChip, hLeft, hRight, hDraws⟩ := Mix.mk.inj hSame
    refine .inr ⟨_, _, hNext, execFrame_of_serviced (s := s.noIrq) hy, ?_, ?_⟩
    · rw [State.finishFrame_output, State.finishFrame_output, hLeft, hRight]
    · rw [State.noIrq_finishFrame, State.noIrq_finishFrame, State.noIrq_noIrq, hChip, hDraws]

/-- A render pass puts out the same with the interrupts set aside. -/
theorem State.render_noIrq (n : Nat) (s : State) :
    (s.noIrq.render n).map Prod.snd = (s.render n).map Prod.snd := by
  induction n generalizing s with
  | zero => rfl
  | succ n ih =>
    rcases execFrame_noIrq s with ⟨hRefused, hRefused'⟩ | ⟨t, u, hNext, hNext', hOutput, hSame⟩
    · rw [State.render_succ_of_refused hRefused, State.render_succ_of_refused hRefused']
    · have hRest : (u.render n).map Prod.snd = (t.render n).map Prod.snd := by rw [← ih u, hSame, ih t]
      have hRest' := congrArg (Option.map (t.output :: ·)) hRest
      rw [Option.map_map, Option.map_map] at hRest'
      rw [State.render_succ_of_next hNext, State.render_succ_of_next hNext', hOutput, Option.map_map, Option.map_map]
      exact hRest'

/-- Settles O60: two states that differ in the interrupts alone are one state with the interrupts set aside; the acknowledge writes the
vector and the line. -/
theorem audioIgnoresInterrupts : Obligations.AudioIgnoresInterrupts := by
  refine ⟨fun n s t h => ?_, fun s p => ⟨_, exec_rdIrqv p s, fun _ => rfl, rfl, rfl, rfl, rfl, rfl, rfl⟩⟩
  rw [← s.render_noIrq, ← t.render_noIrq, State.noIrq_eq_iff.2 h]

end Sys2Proof.Machine
end

section
/-! PROOFS. The family of spec/70_reset_and_hazards.md: what `RESET` sets (R260), the initial block (R261), and the silence of a block just
reset (R263). -/

namespace Sys2Proof.Machine

/-! ### `RESET` (R260, R261) -/

theorem exec_reset (s : State) : exec .reset s = .next { s with chip := Chip.reset, output := .nothing } := rfl

/-- Settles O15: every voice of the reset block is the reset voice. -/
theorem resetSetsEveryElement : Obligations.ResetSetsEveryElement := by
  refine fun s => ⟨_, exec_reset s, rfl, fun i => ?_, rfl, rfl, rfl, rfl, rfl, ⟨rfl, rfl, rfl⟩, rfl⟩
  rw [State.voice_eq, Chip.voice_reset]
  exact ⟨rfl, rfl, rfl, rfl, rfl, rfl, rfl, rfl, rfl, rfl, rfl, rfl, rfl, rfl, rfl, rfl, rfl, rfl, rfl, rfl⟩

/-- Settles O16: `RESET` puts the block of `State.reset` in place, whatever the block was. -/
theorem initialBlockIsTheResetBlock : Obligations.InitialBlockIsTheResetBlock := by
  intro s t h
  rw [exec_reset] at h
  cases h
  rfl

/-! ### A block at rest (R141, R211, R263) -/

/-- The service of a voice leaves the voice and the draws as they are and adds nothing to the sums. -/
def Voice.AtRest (p : Params) (mem : Memory) (d : Nat) (v : Voice) : Prop := v.service p mem d = some ⟨v, 0, 0, d⟩

/-- A voice just reset has an empty region, but `STOP0`, which the degenerate check sets, is set already. -/
theorem Voice.atRest_reset (p : Params) (mem : Memory) (d : Nat) : Voice.reset.AtRest p mem d := by
  have hCheck : Voice.reset.degenerateCheck = Voice.reset := Voice.degenerateCheck_of_eq rfl
  have hStopped : Voice.reset.degenerateCheck.stopped = true := by rw [hCheck]; rfl
  rw [Voice.AtRest, Voice.service_stopped hStopped, hCheck]

theorem Mix.service_of_atRest {p : Params} {mem : Memory} {x : Mix} {i : VoiceIx}
    (h : (x.chip.voice i).AtRest p mem x.draws) : x.service p mem i = some x := by
  rw [Mix.service_eq, h, Option.map_some, Mix.add, Chip.setVoice_voice, Int.add_zero, Int.add_zero]

theorem Mix.serviceBelow_of_atRest {p : Params} {mem : Memory} {x : Mix}
    (h : ∀ i, (x.chip.voice i).AtRest p mem x.draws) (n : Nat) : Mix.serviceBelow p mem n x = some x := by
  induction n with
  | zero => rfl
  | succ n ih => rw [Mix.serviceBelow, ih, Option.bind_some, Mix.service_of_atRest (h _)]

/-- A FRAME over a block whose voices are at rest, none of them waiting, puts silence out and changes nothing else. -/
theorem execFrame_of_atRest {s : State} (hRest : ∀ i, (s.chip.voice i).AtRest s.params s.memory s.draws)
    (hIrq : ∀ i, (s.chip.voice i).irq = false) : execFrame s = .next { s with output := .audio 0 0 } := by
  have hServiced := Mix.serviceBelow_of_atRest (x := s.startMix) hRest s.chip.servicedCount
  have hScan : s.chip.scanBelow s.chip.servicedCount = s.chip :=
    Chip.scanBelow_of_none_waits (Chip.servicedCount_le s.chip) fun i _ => hIrq i
  rw [execFrame_of_serviced hServiced, State.finishFrame, State.startMix, hScan]

theorem execFrame_of_reset {s : State} (h : s.chip = Chip.reset) :
    execFrame s = .next { s with output := .audio 0 0 } := by
  have hVoice (i : VoiceIx) : s.chip.voice i = Voice.reset := by rw [h, Chip.voice_reset]
  refine execFrame_of_atRest (fun i => ?_) fun i => ?_ <;> rw [hVoice]
  · exact Voice.atRest_reset _ _ _
  · rfl

/-- Settles O17, by induction on the FRAMEs: each of them finds the reset block again. -/
theorem resetBlockStaysSilent : Obligations.ResetBlockStaysSilent := by
  intro n
  induction n with
  | zero => exact fun s _ => ⟨s, rfl, rfl, rfl, rfl, rfl, rfl⟩
  | succ n ih =>
    intro s h
    obtain ⟨t, hRender, hSame⟩ := ih { s with output := .audio 0 0 } h
    refine ⟨t, ?_, hSame⟩
    rw [State.render_succ_of_next (execFrame_of_reset h), hRender]
    rfl

end Sys2Proof.Machine
end
